-- ==== Sys2Proof/Word.lean ====
section
/-! DEFINITION. The word types of SIIC (00_scope.md R7, R8) and the host command tuple (30_encoding.md R100). -/

namespace Sys2Proof

/-- `u8`: an unsigned 8-bit value, the unit of IN and OUT (00_scope.md R7, 20_memory.md R60). -/
abbrev Byte := BitVec 8

/-- `u16` (00_scope.md R7). -/
abbrev U16 := BitVec 16

/-- `u32` (00_scope.md R7). -/
abbrev U32 := BitVec 32

/-- A byte string: its head is the byte at offset 0 (00_scope.md R8). -/
abbrev Bytes := List Byte

/-- One host command as the command channel carries it (30_encoding.md R99, R100). -/
structure Command where
  code : Byte
  arg0 : U32
  arg1 : U32
  arg2 : U32
  deriving DecidableEq, Repr

end Sys2Proof
end

