-- ==== Sys2Proof/Machine/Memory.lean ====
section
/-! DEFINITION. The two byte spaces IN and OUT as sorted lists of cells (20_memory.md R60 to R66). -/

namespace Sys2Proof.Machine

/-- A byte space: the listed cells, addresses strictly rising. -/
abbrev Memory := List Host.Cell

/-- What an unlisted byte of IN reads as (log 1). IN always holds a byte at every address (20_memory.md R60);
the list names those that are not this one. -/
def inUnlisted : Option Byte := some 0

/-- What an unlisted byte of OUT reads as: nothing. The spec gives it no value (93_implementation_defined.md U1, U2). -/
def outUnlisted : Option Byte := none

/-- One past the last address of a space: 32-bit addresses (20_memory.md R60). -/
def spaceSize : Nat := 2 ^ 32

/-- Addresses strictly rising from `lo` on, all inside the space, and no cell equal to the unlisted value `d`. -/
def Memory.wfFrom (d : Option Byte) : Nat → Memory → Bool
  | _, [] => true
  | lo, (a, b) :: m => decide (lo ≤ a) && decide (a < spaceSize) && !(some b == d) && Memory.wfFrom d (a + 1) m

/-- The canonical form: equal contents are equal lists. -/
def Memory.wf (d : Option Byte) (m : Memory) : Bool := Memory.wfFrom d 0 m

/-- The listed byte at address `a`. -/
def lookup : Memory → Nat → Option Byte
  | [], _ => none
  | (x, b) :: m, a => if x = a then some b else lookup m a

/-- One byte of IN. -/
def inByte (m : Memory) (a : Nat) : Byte :=
  match lookup m a with
  | some b => b
  | none => inUnlisted.getD 0

/-- One byte of OUT, or nothing where the spec gives it no value. -/
def outByte (m : Memory) (a : Nat) : Option Byte :=
  match lookup m a with
  | some b => some b
  | none => outUnlisted

/-- The `n` bytes from address `a` on, lowest address first: `MemRead(IN, a, n)` (20_memory.md R64). -/
def readBlock (m : Memory) : Nat → Nat → Bytes
  | _, 0 => []
  | a, n + 1 => inByte m a :: readBlock m (a + 1) n

/-- The cells of the bytes `b` laid from address `a` on, without those that read as unlisted. -/
def cellsOf (d : Option Byte) : Nat → Bytes → Memory
  | _, [] => []
  | a, b :: bs => if some b = d then cellsOf d (a + 1) bs else (a, b) :: cellsOf d (a + 1) bs

/-- `MemWrite(m, a, n, b)`: the bytes `b` at `a` and above, lowest address first (20_memory.md R66). -/
def writeBlock (d : Option Byte) (a : Nat) (b : Bytes) (m : Memory) : Memory :=
  m.filter (fun c => decide (c.1 < a)) ++ cellsOf d a b ++ m.filter (fun c => decide (a + b.length ≤ c.1))

end Sys2Proof.Machine
end

