-- ==== Sys2Proof/Config.lean ====
section
/-! DEFINITION. The parameters of SIIC: the fixed ones of 00_scope.md R5, the open ones of R6, and the
free value of OUT_LEN. -/

namespace Sys2Proof

/-- The open parameters of one instance of the block (00_scope.md R6, 92_eei_decisions.md D8 and D32).
`inCap` and `outCapMax` are 32 bits wide, so `<= 2^32 - 1` holds by type. `none` is "unbounded", which R6
allows for `CAT_CAP` and `DIAG_CAP`. -/
structure Config where
  inCap : U32
  outCapMax : U32
  catCap : Option Nat
  diagCap : Option Nat
  deriving DecidableEq, Repr

/-- The widest instance R6 allows. DESIGN CHOICE (log 2): `State.reset` is an instance of this one. -/
def Config.widest : Config :=
  { inCap := 0xFFFFFFFF#32, outCapMax := 0xFFFFFFFF#32, catCap := none, diagCap := none }

/-- Identity string of the block (00_scope.md R1, 92_eei_decisions.md D1). -/
def Config.identity : String :=
  "SIIC-1 (CRC8 poly 0x107 seed 0xFF msb-first; SII sections 10,20,30,40,41,50,51,60)"

/-- `POLY`, the feedback constant (00_scope.md R5). -/
def Config.crcPoly : Byte := 0x07#8

/-- `SEED` (00_scope.md R5). -/
def Config.crcSeed : Byte := 0xFF#8

/-- `PRE_BYTES` (00_scope.md R5). -/
def Config.preBytes : Nat := 16

/-- `CFG_BYTES` (00_scope.md R5). -/
def Config.cfgBytes : Nat := 112

/-- `HDR_BYTES` (00_scope.md R5). -/
def Config.hdrBytes : Nat := 128

/-- `DESC_BYTES` (00_scope.md R5). -/
def Config.descBytes : Nat := 4

/-- The largest section payload: 65535 words (00_scope.md R5). -/
def Config.maxPayload : Nat := 131070

/-- `END_TYPE` (00_scope.md R5). -/
def Config.endType : U16 := 0xFFFF#16

/-- FREE VALUE (log 4): what OUT_LEN holds while OUT_VALID = 0 (93_implementation_defined.md U1, `any value`).
It has no body, so no statement can rest on its value. -/
opaque Config.openOutLen : Nat → U32

end Sys2Proof
end

