-- ==== Sys2Proof/Machine/State.lean ====
section
/-! DEFINITION. The state of SIIC as plain data (10_state.md R20 to R48), its reset, and the reasons a step can stop. -/

namespace Sys2Proof.Machine

/-! ## The image: header registers -/

/-- `PRE.csum_valid`, three-valued (10_state.md R24, 92_eei_decisions.md D43). -/
inductive CsumValid where
  | unset
  | valid
  | invalid
  deriving DecidableEq, Repr

/-- `PRE` (10_state.md R23). `stationAlias` is `PRE.alias`; `rsvd0` to `rsvd3` are `PRE.rsvd[0..3]`. -/
structure Preamble where
  pdiCtrl : U16
  pdiConf : U16
  syncImpulse : U16
  pdiConf2 : U16
  stationAlias : U16
  rsvd0 : Byte
  rsvd1 : Byte
  rsvd2 : Byte
  rsvd3 : Byte
  checksum : Byte
  csumValid : CsumValid
  deriving DecidableEq, Repr

/-- `CFG` (10_state.md R25). -/
structure StdConfig where
  vendorId : U32
  productId : U32
  revisionId : U32
  serial : U32
  bsRxAddr : U16
  bsRxSize : U16
  bsTxAddr : U16
  bsTxSize : U16
  stdRxAddr : U16
  stdRxSize : U16
  stdTxAddr : U16
  stdTxSize : U16
  mbxProto : U16
  eepromCode : U16
  version : U16
  deriving DecidableEq, Repr

/-! ## The image: category payloads -/

/-- General payload (10_state.md R30). `currentEbus` is the i16 in milliampere, two's complement (log 17). -/
structure General where
  groupIdx : Byte
  imageIdx : Byte
  orderIdx : Byte
  nameIdx : Byte
  coeSdo : Bool
  coeSdoInfo : Bool
  coePdoAssign : Bool
  coePdoConfig : Bool
  coeUploadAtStart : Bool
  coeSdoComplete : Bool
  foeEnabled : Bool
  eoeEnabled : Bool
  safeop : Bool
  notlrw : Bool
  mboxDll : Bool
  identAlStatus : Bool
  identPhysMem : Bool
  currentEbus : U16
  port0 : BitVec 4
  port1 : BitVec 4
  port2 : BitVec 4
  port3 : BitVec 4
  physAddr : U16
  deriving DecidableEq, Repr

/-- FMMU usage; `unused` is never materialised (10_state.md R31). -/
inductive FmmuUsage where
  | outputs
  | inputs
  | smStatus
  deriving DecidableEq, Repr

/-- SyncManager type (10_state.md R32). -/
inductive SyncType where
  | unused
  | mboxOut
  | mboxIn
  | procOut
  | procIn
  deriving DecidableEq, Repr

/-- One SyncManager record (10_state.md R32). -/
structure SyncEntry where
  physAddr : U16
  length : U16
  control : Byte
  status : Byte
  enable : Byte
  type : SyncType
  deriving DecidableEq, Repr

/-- Direction of a PDO (10_state.md R33). -/
inductive PdoDir where
  | tx
  | rx
  deriving DecidableEq, Repr

/-- One PDO entry (10_state.md R33). -/
structure PdoEntry where
  index : U16
  subindex : Byte
  strIdx : Byte
  dataType : Byte
  bitLen : Byte
  flags : U16
  deriving DecidableEq, Repr

/-- Pdo payload (10_state.md R33). -/
structure Pdo where
  dir : PdoDir
  index : U16
  sm : Byte
  dcSync : Byte
  nameIdx : Byte
  flags : U16
  entries : List PdoEntry
  deriving DecidableEq, Repr

/-- DClock payload (10_state.md R34). -/
structure DClock where
  cyclicOpEnabled : Bool
  sync0Active : Bool
  sync1Active : Bool
  syncPulse : U16
  int0Status : Bool
  int1Status : Bool
  cyclicOpStart : U32
  sync0Cycle : U32
  sync1Cycle : U32
  latch0PosEdge : Bool
  latch0NegEdge : Bool
  latch1PosEdge : Bool
  latch1NegEdge : Bool
  latch0PosEvent : Bool
  latch0NegEvent : Bool
  latch1PosEvent : Bool
  latch1NegEvent : Bool
  latch0PosVal : U32
  latch0NegVal : U32
  latch1PosVal : U32
  latch1NegVal : U32
  deriving DecidableEq, Repr

/-- The payload of a category node, a closed union (10_state.md R29 to R35). -/
inductive Payload where
  /-- R29: the string with ID `k` stands at index `k - 1`. -/
  | strings (strs : List Bytes)
  /-- R35: no fields. -/
  | datatypes
  /-- R30. -/
  | general (g : General)
  /-- R31. -/
  | fmmu (usage : List FmmuUsage)
  /-- R32. -/
  | syncM (entries : List SyncEntry)
  /-- R33. -/
  | pdo (d : Pdo)
  /-- R34. -/
  | dclock (d : DClock)
  deriving DecidableEq, Repr

/-- A Category node `{type, size_bytes, payload}` (10_state.md R28). -/
structure Category where
  type : U16
  sizeBytes : Nat
  payload : Payload
  deriving DecidableEq, Repr

/-! ## Results, walker, writer -/

/-- A record `{code, sec_type, pos}`: `ERR`, or an element of `DIAG` (10_state.md R41, R44). -/
structure ErrRec where
  code : Byte
  secType : U16
  pos : U32
  deriving DecidableEq, Repr

/-- `W.phase` (10_state.md R39); `inSection` is its `Section`. -/
inductive Phase where
  | idle
  | preamble
  | stdConfig
  | inSection
  | terminal
  | failed
  deriving DecidableEq, Repr

/-- `W` (10_state.md R38 to R40). `limit` is the model's own: the operand `n` of the running DECODE (log 11). -/
structure Walker where
  pos : U32
  phase : Phase
  secType : U16
  secWords : U16
  limit : U32
  deriving DecidableEq, Repr

/-- `E` (10_state.md R42, R43). -/
structure Writer where
  wpos : U32
  idx : Nat
  opts : BitVec 3
  deriving DecidableEq, Repr

/-! ## The interface -/

/-- The abstract result of RD_CAT and STR_BY_ID (30_encoding.md R100, 93_implementation_defined.md U11). -/
inductive Result where
  | none
  | payload (p : Payload)
  | bytes (b : Bytes)
  deriving DecidableEq, Repr

/-- The response of the last command (30_encoding.md R100). -/
structure Response where
  status : Byte
  val0 : U32
  val1 : U32
  result : Result
  deriving DecidableEq, Repr

/-- What the host does to the block, between commands (log 8): issue a command (30_encoding.md R100), write IN
(20_memory.md R61), assert `rst` (70_reset_and_hazards.md R360). -/
inductive HostEvent where
  | command (c : Command)
  | writeIn (a : U32) (b : Bytes)
  | rst
  deriving DecidableEq, Repr

/-! ## The state -/

/-- The complete state (10_state.md R20), with the interface and the model's own fields below it. -/
structure State where
  /-- `CRC`, R22. -/
  crc : Byte
  /-- `PRE`, R23. -/
  pre : Preamble
  /-- `CFG`, R25. -/
  cfg : StdConfig
  /-- `CATS`, R27; index 0 is the head. -/
  cats : List Category
  /-- `OUT`, R36: the listed bytes have a value, an unlisted byte has none (log 5). -/
  out : List Host.Cell
  /-- `OUT_LEN`, R36. -/
  outLen : U32
  /-- `OUT_VALID`, R36. -/
  outValid : Bool
  /-- `STATUS`, R37. -/
  status : Byte
  /-- `ERR`, R44. -/
  err : ErrRec
  /-- `DIAG`, R41. -/
  diags : List ErrRec
  /-- `W`, R38 to R40. -/
  w : Walker
  /-- `E`, R42, R43. -/
  e : Writer
  /-- The response channel, 30_encoding.md R100. -/
  rsp : Response
  /-- `IN`, 20_memory.md R60, R61: an unlisted byte reads as 0x00 (log 1). -/
  input : List Host.Cell
  /-- The host's pending events, oldest first (log 7, log 8). -/
  host : List HostEvent
  /-- The open parameters of this instance, 00_scope.md R6 (log 2); no step changes them. -/
  config : Config
  /-- The model's own counter of free values (log 4). -/
  freeCount : Nat
  deriving DecidableEq, Repr

/-- Why the machine stops. -/
inductive Fault where
  /-- Raised by `step` on a host write of IN whose bytes do not all have a 32-bit address: the spec gives no such
  byte (20_memory.md R60). Safe: the spec's host cannot make it. No command of the block raises it. -/
  | hostWriteOutsideIn
  deriving DecidableEq, Repr

/-- Why the machine has no meaning for an instruction. The spec's own refusals (60_exceptions.md R332) are not
these: they are next states. -/
inductive Refusal where
  /-- An arm of `exec` without a meaning. Raised by no arm of this model. Safe. -/
  | notModelled (mnemonic : String)
  deriving DecidableEq, Repr

/-! ## Reset -/

/-- `PRE` of the empty image (10_state.md R48). -/
def Preamble.empty : Preamble :=
  { pdiCtrl := 0, pdiConf := 0, syncImpulse := 0, pdiConf2 := 0, stationAlias := 0, rsvd0 := 0, rsvd1 := 0,
    rsvd2 := 0, rsvd3 := 0, checksum := 0, csumValid := .unset }

/-- `CFG` of the empty image (10_state.md R48). -/
def StdConfig.empty : StdConfig :=
  { vendorId := 0, productId := 0, revisionId := 0, serial := 0, bsRxAddr := 0, bsRxSize := 0, bsTxAddr := 0,
    bsTxSize := 0, stdRxAddr := 0, stdRxSize := 0, stdTxAddr := 0, stdTxSize := 0, mbxProto := 0, eepromCode := 0,
    version := 0 }

/-- The record `{0, 0, 0}` (10_state.md R44). -/
def ErrRec.zero : ErrRec := { code := 0, secType := 0, pos := 0 }

/-- `W` at reset (10_state.md R48); `limit` DESIGN CHOICE 0 (log 11). -/
def Walker.reset : Walker := { pos := 0, phase := .idle, secType := 0, secWords := 0, limit := 0 }

/-- `E` at reset (10_state.md R48). -/
def Writer.reset : Writer := { wpos := 0, idx := 0, opts := 0 }

/-- The response channel at reset: DESIGN CHOICE, nothing given yet (log 10). -/
def Response.zero : Response := { status := 0, val0 := 0, val1 := 0, result := .none }

/-- The machine right after reset, for an instance with the parameters `c` (10_state.md R48). OUT lists nothing;
OUT_LEN is DESIGN CHOICE 0 (log 3); IN lists nothing (log 1); no event is pending. -/
def State.resetWith (c : Config) : State :=
  { crc := Config.crcSeed, pre := Preamble.empty, cfg := StdConfig.empty, cats := [], out := [], outLen := 0,
    outValid := false, status := 0, err := ErrRec.zero, diags := [], w := Walker.reset, e := Writer.reset,
    rsp := Response.zero, input := [], host := [], config := c, freeCount := 0 }

/-- The machine right after reset (10_state.md R48), on the widest instance (log 2). -/
def State.reset : State := State.resetWith Config.widest

end Sys2Proof.Machine
end

