-- ==== Sys2Proof/Machine/Ops.lean ====
section
/-! DEFINITION. The shared operations on the state: reading IN, writing OUT, ending a command ok, refusing it,
recording a diagnostic, and raising a fatal error (60_exceptions.md R330 to R332). -/

namespace Sys2Proof.Machine

/-- The outcome of an instruction or a step. -/
abbrev Out := Host.Outcome State Fault Refusal

/-! ## Codes -/

/-- The events of 60_exceptions.md R321. -/
inductive Code where
  | malformedHeader
  | truncatedBuffer
  | missingTerminator
  | malformedCategory
  | resourceExhausted
  | checksumInvalid
  | unknownCategory
  | unimplementedCategory
  | checksumInconsistent
  | bufferTooSmall
  | sectionTooLarge
  | badCommand
  | badOperand
  | registryEmpty
  | registryFull
  | wrongCategoryType
  | indexOutOfRange
  deriving DecidableEq, Repr

/-- The numbers of 60_exceptions.md R321. -/
def codeByte : Code → Byte
  | .malformedHeader => 0x01
  | .truncatedBuffer => 0x02
  | .missingTerminator => 0x03
  | .malformedCategory => 0x04
  | .resourceExhausted => 0x05
  | .checksumInvalid => 0x10
  | .unknownCategory => 0x11
  | .unimplementedCategory => 0x12
  | .checksumInconsistent => 0x21
  | .bufferTooSmall => 0x22
  | .sectionTooLarge => 0x23
  | .badCommand => 0x30
  | .badOperand => 0x31
  | .registryEmpty => 0x32
  | .registryFull => 0x33
  | .wrongCategoryType => 0x35
  | .indexOutOfRange => 0x36

/-! ## Memory -/

/-- `MemRead(IN, a, n)` (20_memory.md R64). -/
def memRead (s : State) (a n : Nat) : Bytes := readBlock s.input a n

/-- `MemWrite(OUT, a, n, b)` (20_memory.md R66). -/
def memWrite (a : Nat) (b : Bytes) (s : State) : State := { s with out := writeBlock outUnlisted a b s.out }

/-- A host write of IN (20_memory.md R61). -/
def hostWriteIn (a : Nat) (b : Bytes) (s : State) : State := { s with input := writeBlock inUnlisted a b s.input }

/-! ## The image -/

/-- `OUT_VALID <- 0` (10_state.md R36). OUT then has no value, and OUT_LEN a free one
(93_implementation_defined.md U1; log 4, log 5). -/
def invalidateOut (s : State) : State :=
  { s with out := [], outValid := false, outLen := Config.openOutLen s.freeCount, freeCount := s.freeCount + 1 }

/-- `PRE, CFG, CATS <- the empty image ; OUT_VALID <- 0` (44_walker.md R261, R274; 10_state.md R48). -/
def emptyImage (s : State) : State :=
  { invalidateOut s with pre := Preamble.empty, cfg := StdConfig.empty, cats := [] }

/-- The instance holds no more than `cap` of something and holds `n` (00_scope.md R6; 42_registry.md R170,
60_exceptions.md R331: the test is `n = cap`). -/
def atCapacity (cap : Option Nat) (n : Nat) : Bool := cap == some n

/-! ## Ending a command -/

/-- A command ends ok: `STATUS <- 0x00` and the response (00_scope.md R10, 30_encoding.md R100). -/
def finish (v0 v1 : U32) (r : Result) (s : State) : State :=
  { s with status := 0, rsp := { status := 0, val0 := v0, val1 := v1, result := r } }

/-- `refuse c`: STATUS and the response, nothing else (60_exceptions.md R332). -/
def refuse (c : Code) (s : State) : State :=
  { s with status := codeByte c, rsp := { status := codeByte c, val0 := 0, val1 := 0, result := .none } }

/-- The part of a fatal error that DECODE and ENCODE share: `ERR <- {c, t, p}`, `STATUS <- c`, and the response
with `val0 = v0` (60_exceptions.md R330). -/
def recordError (c : Code) (t : U16) (p v0 : U32) (s : State) : State :=
  { s with err := { code := codeByte c, secType := t, pos := p }, status := codeByte c,
           rsp := { status := codeByte c, val0 := v0, val1 := 0, result := .none } }

/-- `raise c(t, p)` inside DECODE: no partial image, no diagnostics, `W.pos <- p`, `W.phase <- Failed`
(60_exceptions.md R330, 44_walker.md R274). There is no return from it (60_exceptions.md R347). -/
def raiseDecode (c : Code) (t : U16) (p : U32) (s : State) : State :=
  recordError c t p p { emptyImage s with diags := [], w := { s.w with pos := p, phase := .failed } }

/-- `raise c(t, p)` inside ENCODE: OUT_VALID stays 0 and what was written so far has no value
(60_exceptions.md R330, 45_writer.md R305). -/
def raiseEncode (c : Code) (t : U16) (p : U32) (s : State) : State :=
  recordError c t p 0 { s with out := [], outValid := false }

/-- `diag c(t, p)`, then the rest `k` of the step; a full DIAG raises ResourceExhausted instead
(60_exceptions.md R331). -/
def withDiag (c : Code) (t : U16) (p : U32) (k : State → State) (s : State) : State :=
  if atCapacity s.config.diagCap s.diags.length then raiseDecode .resourceExhausted t p s
  else k { s with diags := s.diags ++ [{ code := codeByte c, secType := t, pos := p }] }

/-! ## Reset as an event -/

/-- `rst` asserted between commands: the reset state; IN, the pending events and the instance's parameters are not
part of it (70_reset_and_hazards.md R360; log 18). -/
def resetEvent (s : State) : State :=
  { State.resetWith s.config with input := s.input, host := s.host, freeCount := s.freeCount }

end Sys2Proof.Machine
end

