-- ==== Sys2Proof/Machine/Operands.lean ====
section
/-! DEFINITION. The operand forms of the host commands and their tests (30_encoding.md R100, R101; 20_memory.md R61). -/

namespace Sys2Proof.Machine

/-- The operand fits a field of `n` bits (30_encoding.md R101). -/
def fits (v : U32) (n : Nat) : Bool := decide (v.toNat < 2 ^ n)

/-- `a + len <= IN_CAP`, the sum without wrap-around (20_memory.md R61, 40_crc8.md R129). -/
def inRange (s : State) (a len : U32) : Bool := decide (a.toNat + len.toNat ≤ s.config.inCap.toNat)

/-- The bytes `IN[a..a+len)` an operand pair names (20_memory.md R61). -/
def inOperand (s : State) (a len : U32) : Bytes := memRead s a.toNat len.toNat

/-- A count or an index as a 32-bit response value (30_encoding.md R100; log 13). -/
def countWord (n : Nat) : U32 := BitVec.ofNat 32 n

/-- `opts` bit 0, `skip_tx_pdo` (30_encoding.md R100). -/
def skipTxPdo (opts : BitVec 3) : Bool := opts.getLsbD 0

/-- `opts` bit 1, `skip_rx_pdo` (30_encoding.md R100). -/
def skipRxPdo (opts : BitVec 3) : Bool := opts.getLsbD 1

/-- `opts` bit 2, `skip_dc` (30_encoding.md R100). -/
def skipDc (opts : BitVec 3) : Bool := opts.getLsbD 2

/-- The type word `t` is suppressed by the skip bits (45_writer.md R295, R296). -/
def suppressed (opts : BitVec 3) (t : U16) : Bool :=
  (t == 50 && skipTxPdo opts) || (t == 51 && skipRxPdo opts) || (t == 60 && skipDc opts)

end Sys2Proof.Machine
end

