-- ==== Sys2Proof/Machine/Diagnostics.lean ====
section
/-! DEFINITION. RD_DIAG (60_exceptions.md R333). -/

namespace Sys2Proof.Machine

/-- `DIAG[k].code | (DIAG[k].sec_type << 16)`; bits 15:8 are 0 (60_exceptions.md R333). -/
def diagWord (d : ErrRec) : U32 := d.code.setWidth 32 ||| (d.secType.setWidth 32 <<< 16)

/-- RD_DIAG (60_exceptions.md R333). -/
def execRdDiag (k : U32) (s : State) : Out :=
  match s.diags[k.toNat]? with
  | none => .next (refuse .indexOutOfRange s)
  | some d => .next (finish (diagWord d) d.pos .none s)

end Sys2Proof.Machine
end

