-- ==== Sys2Proof/Machine/Crc.lean ====
section
/-! DEFINITION. The CRC-8 generator and its commands (40_crc8.md). -/

namespace Sys2Proof.Machine

/-- Shift left, drop bit 7, and add the feedback constant when the feedback bit is set (40_crc8.md R121, R123). -/
def crcShift (fb : Bool) (s : Byte) : Byte := if fb then (s <<< 1) ^^^ Config.crcPoly else s <<< 1

/-- `bitstep(s, d)` (40_crc8.md R123). -/
def crcBitstep (s : Byte) (d : Bool) : Byte := crcShift (s.getLsbD 7 ^^ d) s

/-- `n` iterations of the loop of `update` (40_crc8.md R121). -/
def crcShifts : Nat → Byte → Byte
  | 0, s => s
  | n + 1, s => crcShifts n (crcShift (s.getLsbD 7) s)

/-- `update(s, b)` (40_crc8.md R121). -/
def crcUpdate (s b : Byte) : Byte := crcShifts 8 (s ^^^ b)

/-- `fold(s, M)` (40_crc8.md R122). -/
def crcFold : Byte → Bytes → Byte
  | s, [] => s
  | s, b :: m => crcFold (crcUpdate s b) m

/-- `compute(M)` (40_crc8.md R122). -/
def crcCompute (m : Bytes) : Byte := crcFold Config.crcSeed m

/-- A CRC command's end: the new register value, which is also `val0` (40_crc8.md R125 to R129). -/
def setCrc (c : Byte) (s : State) : State := finish (c.setWidth 32) 0 .none { s with crc := c }

/-- CRC_INIT (40_crc8.md R125). -/
def execCrcInit (s : State) : Out := .next (setCrc Config.crcSeed s)

/-- CRC_SET (40_crc8.md R126). -/
def execCrcSet (v : U32) (s : State) : Out :=
  if fits v 8 then .next (setCrc (v.setWidth 8) s) else .next (refuse .badOperand s)

/-- CRC_BIT (40_crc8.md R127). -/
def execCrcBit (d : U32) (s : State) : Out :=
  if fits d 1 then .next (setCrc (crcBitstep s.crc (d.getLsbD 0)) s) else .next (refuse .badOperand s)

/-- CRC_UPDATE (40_crc8.md R128). -/
def execCrcUpdate (b : U32) (s : State) : Out :=
  if fits b 8 then .next (setCrc (crcUpdate s.crc (b.setWidth 8)) s) else .next (refuse .badOperand s)

/-- CRC_COMPUTE (40_crc8.md R129). -/
def execCrcCompute (a len : U32) (s : State) : Out :=
  if inRange s a len then .next (setCrc (crcCompute (inOperand s a len)) s) else .next (refuse .badOperand s)

end Sys2Proof.Machine
end

