-- ==== Sys2Proof/Machine/Flags.lean ====
section
/-! DEFINITION. The few-valued status elements: `PRE.csum_valid`, `OUT_VALID`, `W.phase`, and how they read as
register values (10_state.md R45, R47). -/

namespace Sys2Proof.Machine

/-- `PRE.csum_valid` after the preamble `p` was decoded: Valid exactly when folding all 16 bytes gives 0
(41_header_codecs.md R141, R142). -/
def checksumFlag (p : Bytes) : CsumValid := if crcFold Config.crcSeed p = 0 then .valid else .invalid

/-- CSUM_VALID as read: `Unset` 0, `Invalid` 1, `Valid` 3 (10_state.md R47). -/
def csumBits : CsumValid → U32
  | .unset => 0
  | .invalid => 1
  | .valid => 3

/-- OUT_VALID as read (10_state.md R47). -/
def outValidBit (b : Bool) : U32 := if b then 1 else 0

/-- The codes of `W.phase` (10_state.md R39). -/
def phaseBits : Phase → U32
  | .idle => 0
  | .preamble => 1
  | .stdConfig => 2
  | .inSection => 3
  | .terminal => 4
  | .failed => 5

/-- A DECODE is running: no command can be issued (10_state.md R39, 00_scope.md R11). -/
def walking : Phase → Bool
  | .preamble => true
  | .stdConfig => true
  | .inSection => true
  | .idle => false
  | .terminal => false
  | .failed => false

end Sys2Proof.Machine
end

