-- ==== Sys2Proof/Machine/Bytes.lean ====
section
/-! DEFINITION. Byte strings and little-endian access (20_memory.md R64 to R67; 30_encoding.md R92). -/

namespace Sys2Proof.Machine

/-- `rd8(B, o)` (20_memory.md R65). Outside the string it answers 0; every rule that uses it checks the
length first (log 16). -/
def rd8 (b : Bytes) (o : Nat) : Byte := b.getD o 0

/-- The `u16` whose low byte is `b0` (20_memory.md R64). -/
def u16of (b0 b1 : Byte) : U16 := b1 ++ b0

/-- The `u32` whose lowest byte is `b0` (20_memory.md R64). -/
def u32of (b0 b1 b2 b3 : Byte) : U32 := b3 ++ (b2 ++ (b1 ++ b0))

/-- `rd16(B, o)`, little-endian (20_memory.md R65). -/
def rd16 (b : Bytes) (o : Nat) : U16 := u16of (rd8 b o) (rd8 b (o + 1))

/-- `rd32(B, o)`, little-endian (20_memory.md R65). -/
def rd32 (b : Bytes) (o : Nat) : U32 := u32of (rd8 b o) (rd8 b (o + 1)) (rd8 b (o + 2)) (rd8 b (o + 3))

/-- `rdi16(B, o)`: `rd16` read as two's complement (20_memory.md R65). -/
def rdi16 (b : Bytes) (o : Nat) : Int := (rd16 b o).toInt

/-- `le16(v)` (20_memory.md R67). -/
def le16 (v : U16) : Bytes := [v.extractLsb' 0 8, v.extractLsb' 8 8]

/-- `le32(v)` (20_memory.md R67). -/
def le32 (v : U32) : Bytes :=
  [v.extractLsb' 0 8, v.extractLsb' 8 8, v.extractLsb' 16 8, v.extractLsb' 24 8]

/-- `lei16(v) = le16(v mod 2^16)` (20_memory.md R67). -/
def lei16 (v : Int) : Bytes := le16 (BitVec.ofInt 16 v)

/-- `zeros(n)` (00_scope.md R8). -/
def zeros (n : Nat) : Bytes := List.replicate n 0

/-- A one-bit flag `(byte >> k) & 1` (30_encoding.md R92 c). -/
def flag (b : Byte) (k : Nat) : Bool := b.getLsbD k

/-- The bit a flag contributes to its byte: `f << k` (43_category_codecs.md R211, R241). -/
def bitAt (f : Bool) (k : Nat) : Byte := if f then 1#8 <<< k else 0#8

/-- The low nibble `byte & 0x0F` (30_encoding.md R92 d). -/
def lowNibble (b : Byte) : BitVec 4 := b.extractLsb' 0 4

/-- The high nibble `byte >> 4` (30_encoding.md R92 d). -/
def highNibble (b : Byte) : BitVec 4 := b.extractLsb' 4 4

/-- The byte of two nibbles, `lo | hi << 4` (43_category_codecs.md R211). -/
def nibbles (lo hi : BitVec 4) : Byte := hi ++ lo

/-- The bytes of the number `w`, least significant first, `n` of them: how an opcode-table word is laid out. -/
def natBytes : Nat → Nat → Bytes
  | 0, _ => []
  | n + 1, w => BitVec.ofNat 8 (w % 256) :: natBytes n (w / 256)

end Sys2Proof.Machine
end

