-- ==== Sys2Proof/Machine/Header.lean ====
section
/-! DEFINITION. The preamble codec, the standard-config codec and the EEPROM size scaling
(41_header_codecs.md R141 to R157; layouts 30_encoding.md R81, R82). -/

namespace Sys2Proof.Machine

/-- `PRE` from the 16 bytes `P` (41_header_codecs.md R141); byte 15 is not stored. -/
def loadPreamble (p : Bytes) (cv : CsumValid) : Preamble :=
  { pdiCtrl := rd16 p 0, pdiConf := rd16 p 2, syncImpulse := rd16 p 4, pdiConf2 := rd16 p 6,
    stationAlias := rd16 p 8, rsvd0 := rd8 p 10, rsvd1 := rd8 p 11, rsvd2 := rd8 p 12, rsvd3 := rd8 p 13,
    checksum := rd8 p 14, csumValid := cv }

/-- `H`, the 14 bytes before the checksum word; the reserved bytes are written as 0x00 (41_header_codecs.md R145,
R146). -/
def preambleHead (r : Preamble) : Bytes :=
  le16 r.pdiCtrl ++ (le16 r.pdiConf ++ (le16 r.syncImpulse ++ (le16 r.pdiConf2 ++ (le16 r.stationAlias ++ zeros 4))))

/-- `H ++ K`: the stored checksum byte, then 0x00 (41_header_codecs.md R145, R147). -/
def encodePreamble (r : Preamble) : Bytes := preambleHead r ++ [r.checksum, 0]

/-- `CFG` from the 112 bytes `C`; the two reserved runs are ignored (41_header_codecs.md R151). -/
def loadStdConfig (c : Bytes) : StdConfig :=
  { vendorId := rd32 c 0, productId := rd32 c 4, revisionId := rd32 c 8, serial := rd32 c 12,
    bsRxAddr := rd16 c 24, bsRxSize := rd16 c 26, bsTxAddr := rd16 c 28, bsTxSize := rd16 c 30,
    stdRxAddr := rd16 c 32, stdRxSize := rd16 c 34, stdTxAddr := rd16 c 36, stdTxSize := rd16 c 38,
    mbxProto := rd16 c 40, eepromCode := rd16 c 108, version := rd16 c 110 }

/-- The 112 bytes of `CFG`; the reserved runs are written as zeros (41_header_codecs.md R152). -/
def encodeStdConfig (g : StdConfig) : Bytes :=
  le32 g.vendorId ++ (le32 g.productId ++ (le32 g.revisionId ++ (le32 g.serial ++ (zeros 8
    ++ (le16 g.bsRxAddr ++ (le16 g.bsRxSize ++ (le16 g.bsTxAddr ++ (le16 g.bsTxSize
    ++ (le16 g.stdRxAddr ++ (le16 g.stdRxSize ++ (le16 g.stdTxAddr ++ (le16 g.stdTxSize
    ++ (le16 g.mbxProto ++ (zeros 66 ++ (le16 g.eepromCode ++ le16 g.version)))))))))))))))

/-- `eeprom_bytes(code) = (code << 7) + 0x80` (41_header_codecs.md R156). -/
def eepromBytes (code : U16) : Nat := code.toNat * 128 + 128

/-- `eeprom_code(bytes) = (bytes - 0x80) >> 7`, refused below 0x80 (41_header_codecs.md R156; log 15). -/
def eepromCode (bytes : Nat) : Option Nat := if bytes < 128 then none else some ((bytes - 128) / 128)

end Sys2Proof.Machine
end

