-- ==== Sys2Proof/Machine/Registers.lean ====
section
/-! DEFINITION. The register map and its access commands (10_state.md R47; 41_header_codecs.md R160, R161). -/

namespace Sys2Proof.Machine

/-- The registers of 10_state.md R47, by name. -/
inductive Reg where
  /-- CRC, number 0x00. -/
  | crc
  /-- STATUS, number 0x01. -/
  | status
  /-- ERR_CODE, number 0x02. -/
  | errCode
  /-- ERR_TYPE, number 0x03. -/
  | errType
  /-- ERR_POS, number 0x04. -/
  | errPos
  /-- DIAG_COUNT, number 0x05. -/
  | diagCount
  /-- W_PHASE, number 0x06. -/
  | wPhase
  /-- W_POS, number 0x07. -/
  | wPos
  /-- CAT_COUNT, number 0x08. -/
  | catCount
  /-- OUT_VALID, number 0x09. -/
  | outValid
  /-- OUT_LEN, number 0x0A. -/
  | outLen
  /-- CSUM_VALID, number 0x0B. -/
  | csumValid
  /-- EEPROM_BYTES, number 0x0C. -/
  | eepromBytes
  /-- E_WPOS, number 0x0D. -/
  | eWpos
  /-- PDI_CTRL, number 0x10. -/
  | pdiCtrl
  /-- PDI_CONF, number 0x11. -/
  | pdiConf
  /-- SYNC_IMPULSE, number 0x12. -/
  | syncImpulse
  /-- PDI_CONF2, number 0x13. -/
  | pdiConf2
  /-- ALIAS, number 0x14. -/
  | stationAlias
  /-- PRE_RSVD, number 0x15. -/
  | preRsvd
  /-- CHECKSUM, number 0x16. -/
  | checksum
  /-- VENDOR_ID, number 0x20. -/
  | vendorId
  /-- PRODUCT_ID, number 0x21. -/
  | productId
  /-- REVISION_ID, number 0x22. -/
  | revisionId
  /-- SERIAL, number 0x23. -/
  | serial
  /-- BS_RX_ADDR, number 0x24. -/
  | bsRxAddr
  /-- BS_RX_SIZE, number 0x25. -/
  | bsRxSize
  /-- BS_TX_ADDR, number 0x26. -/
  | bsTxAddr
  /-- BS_TX_SIZE, number 0x27. -/
  | bsTxSize
  /-- STD_RX_ADDR, number 0x28. -/
  | stdRxAddr
  /-- STD_RX_SIZE, number 0x29. -/
  | stdRxSize
  /-- STD_TX_ADDR, number 0x2A. -/
  | stdTxAddr
  /-- STD_TX_SIZE, number 0x2B. -/
  | stdTxSize
  /-- MBX_PROTO, number 0x2C. -/
  | mbxProto
  /-- EEPROM_CODE, number 0x2D. -/
  | eepromCode
  /-- VERSION, number 0x2E. -/
  | version
  deriving DecidableEq, Repr

/-- The register of a number; every other number is unassigned (10_state.md R47). -/
def regOfNumber (n : Nat) : Option Reg :=
  match n with
  | 0x00 => some .crc
  | 0x01 => some .status
  | 0x02 => some .errCode
  | 0x03 => some .errType
  | 0x04 => some .errPos
  | 0x05 => some .diagCount
  | 0x06 => some .wPhase
  | 0x07 => some .wPos
  | 0x08 => some .catCount
  | 0x09 => some .outValid
  | 0x0A => some .outLen
  | 0x0B => some .csumValid
  | 0x0C => some .eepromBytes
  | 0x0D => some .eWpos
  | 0x10 => some .pdiCtrl
  | 0x11 => some .pdiConf
  | 0x12 => some .syncImpulse
  | 0x13 => some .pdiConf2
  | 0x14 => some .stationAlias
  | 0x15 => some .preRsvd
  | 0x16 => some .checksum
  | 0x20 => some .vendorId
  | 0x21 => some .productId
  | 0x22 => some .revisionId
  | 0x23 => some .serial
  | 0x24 => some .bsRxAddr
  | 0x25 => some .bsRxSize
  | 0x26 => some .bsTxAddr
  | 0x27 => some .bsTxSize
  | 0x28 => some .stdRxAddr
  | 0x29 => some .stdRxSize
  | 0x2A => some .stdTxAddr
  | 0x2B => some .stdTxSize
  | 0x2C => some .mbxProto
  | 0x2D => some .eepromCode
  | 0x2E => some .version
  | _ => none

/-- The width of a register in bits (10_state.md R47). -/
def regWidth : Reg → Nat
  | .crc => 8
  | .status => 8
  | .errCode => 8
  | .errType => 16
  | .errPos => 32
  | .diagCount => 32
  | .wPhase => 3
  | .wPos => 32
  | .catCount => 32
  | .outValid => 1
  | .outLen => 32
  | .csumValid => 2
  | .eepromBytes => 24
  | .eWpos => 32
  | .pdiCtrl => 16
  | .pdiConf => 16
  | .syncImpulse => 16
  | .pdiConf2 => 16
  | .stationAlias => 16
  | .preRsvd => 32
  | .checksum => 8
  | .vendorId => 32
  | .productId => 32
  | .revisionId => 32
  | .serial => 32
  | .bsRxAddr => 16
  | .bsRxSize => 16
  | .bsTxAddr => 16
  | .bsTxSize => 16
  | .stdRxAddr => 16
  | .stdRxSize => 16
  | .stdTxAddr => 16
  | .stdTxSize => 16
  | .mbxProto => 16
  | .eepromCode => 16
  | .version => 16

/-- RW registers accept WR_REG, RO registers refuse it (10_state.md R47). -/
def regWritable : Reg → Bool
  | .crc => true
  | .status => false
  | .errCode => false
  | .errType => false
  | .errPos => false
  | .diagCount => false
  | .wPhase => false
  | .wPos => false
  | .catCount => false
  | .outValid => false
  | .outLen => false
  | .csumValid => false
  | .eepromBytes => false
  | .eWpos => false
  | .pdiCtrl => true
  | .pdiConf => true
  | .syncImpulse => true
  | .pdiConf2 => true
  | .stationAlias => true
  | .preRsvd => true
  | .checksum => true
  | .vendorId => true
  | .productId => true
  | .revisionId => true
  | .serial => true
  | .bsRxAddr => true
  | .bsRxSize => true
  | .bsTxAddr => true
  | .bsTxSize => true
  | .stdRxAddr => true
  | .stdRxSize => true
  | .stdTxAddr => true
  | .stdTxSize => true
  | .mbxProto => true
  | .eepromCode => true
  | .version => true

/-- The value of a register, zero-extended to 32 bits (10_state.md R47). -/
def readReg (r : Reg) (s : State) : U32 :=
  match r with
  | .crc => s.crc.setWidth 32
  | .status => s.status.setWidth 32
  | .errCode => s.err.code.setWidth 32
  | .errType => s.err.secType.setWidth 32
  | .errPos => s.err.pos
  | .diagCount => countWord s.diags.length
  | .wPhase => phaseBits s.w.phase
  | .wPos => s.w.pos
  | .catCount => countWord s.cats.length
  | .outValid => outValidBit s.outValid
  | .outLen => s.outLen
  | .csumValid => csumBits s.pre.csumValid
  | .eepromBytes => BitVec.ofNat 32 (eepromBytes s.cfg.eepromCode)
  | .eWpos => s.e.wpos
  | .pdiCtrl => s.pre.pdiCtrl.setWidth 32
  | .pdiConf => s.pre.pdiConf.setWidth 32
  | .syncImpulse => s.pre.syncImpulse.setWidth 32
  | .pdiConf2 => s.pre.pdiConf2.setWidth 32
  | .stationAlias => s.pre.stationAlias.setWidth 32
  | .preRsvd => u32of s.pre.rsvd0 s.pre.rsvd1 s.pre.rsvd2 s.pre.rsvd3
  | .checksum => s.pre.checksum.setWidth 32
  | .vendorId => s.cfg.vendorId
  | .productId => s.cfg.productId
  | .revisionId => s.cfg.revisionId
  | .serial => s.cfg.serial
  | .bsRxAddr => s.cfg.bsRxAddr.setWidth 32
  | .bsRxSize => s.cfg.bsRxSize.setWidth 32
  | .bsTxAddr => s.cfg.bsTxAddr.setWidth 32
  | .bsTxSize => s.cfg.bsTxSize.setWidth 32
  | .stdRxAddr => s.cfg.stdRxAddr.setWidth 32
  | .stdRxSize => s.cfg.stdRxSize.setWidth 32
  | .stdTxAddr => s.cfg.stdTxAddr.setWidth 32
  | .stdTxSize => s.cfg.stdTxSize.setWidth 32
  | .mbxProto => s.cfg.mbxProto.setWidth 32
  | .eepromCode => s.cfg.eepromCode.setWidth 32
  | .version => s.cfg.version.setWidth 32

/-- A write of a register; a read-only one keeps its value (41_header_codecs.md R161 refuses it before). -/
def writeReg (r : Reg) (v : U32) (s : State) : State :=
  match r with
  | .crc => { s with crc := v.setWidth 8 }
  | .status => s
  | .errCode => s
  | .errType => s
  | .errPos => s
  | .diagCount => s
  | .wPhase => s
  | .wPos => s
  | .catCount => s
  | .outValid => s
  | .outLen => s
  | .csumValid => s
  | .eepromBytes => s
  | .eWpos => s
  | .pdiCtrl => { s with pre := { s.pre with pdiCtrl := v.setWidth 16 } }
  | .pdiConf => { s with pre := { s.pre with pdiConf := v.setWidth 16 } }
  | .syncImpulse => { s with pre := { s.pre with syncImpulse := v.setWidth 16 } }
  | .pdiConf2 => { s with pre := { s.pre with pdiConf2 := v.setWidth 16 } }
  | .stationAlias => { s with pre := { s.pre with stationAlias := v.setWidth 16 } }
  | .preRsvd => { s with pre := { s.pre with rsvd0 := v.extractLsb' 0 8, rsvd1 := v.extractLsb' 8 8, rsvd2 := v.extractLsb' 16 8, rsvd3 := v.extractLsb' 24 8 } }
  | .checksum => { s with pre := { s.pre with checksum := v.setWidth 8 } }
  | .vendorId => { s with cfg := { s.cfg with vendorId := v } }
  | .productId => { s with cfg := { s.cfg with productId := v } }
  | .revisionId => { s with cfg := { s.cfg with revisionId := v } }
  | .serial => { s with cfg := { s.cfg with serial := v } }
  | .bsRxAddr => { s with cfg := { s.cfg with bsRxAddr := v.setWidth 16 } }
  | .bsRxSize => { s with cfg := { s.cfg with bsRxSize := v.setWidth 16 } }
  | .bsTxAddr => { s with cfg := { s.cfg with bsTxAddr := v.setWidth 16 } }
  | .bsTxSize => { s with cfg := { s.cfg with bsTxSize := v.setWidth 16 } }
  | .stdRxAddr => { s with cfg := { s.cfg with stdRxAddr := v.setWidth 16 } }
  | .stdRxSize => { s with cfg := { s.cfg with stdRxSize := v.setWidth 16 } }
  | .stdTxAddr => { s with cfg := { s.cfg with stdTxAddr := v.setWidth 16 } }
  | .stdTxSize => { s with cfg := { s.cfg with stdTxSize := v.setWidth 16 } }
  | .mbxProto => { s with cfg := { s.cfg with mbxProto := v.setWidth 16 } }
  | .eepromCode => { s with cfg := { s.cfg with eepromCode := v.setWidth 16 } }
  | .version => { s with cfg := { s.cfg with version := v.setWidth 16 } }

/-- RD_REG can read the register now: OUT_LEN only while OUT_VALID = 1 (41_header_codecs.md R160). -/
def regReadable (r : Reg) (s : State) : Bool :=
  match r with
  | .outLen => s.outValid
  | .crc => true
  | .status => true
  | .errCode => true
  | .errType => true
  | .errPos => true
  | .diagCount => true
  | .wPhase => true
  | .wPos => true
  | .catCount => true
  | .outValid => true
  | .csumValid => true
  | .eepromBytes => true
  | .eWpos => true
  | .pdiCtrl => true
  | .pdiConf => true
  | .syncImpulse => true
  | .pdiConf2 => true
  | .stationAlias => true
  | .preRsvd => true
  | .checksum => true
  | .vendorId => true
  | .productId => true
  | .revisionId => true
  | .serial => true
  | .bsRxAddr => true
  | .bsRxSize => true
  | .bsTxAddr => true
  | .bsTxSize => true
  | .stdRxAddr => true
  | .stdRxSize => true
  | .stdTxAddr => true
  | .stdTxSize => true
  | .mbxProto => true
  | .eepromCode => true
  | .version => true

/-- RD_REG (41_header_codecs.md R160). -/
def execRdReg (r : U32) (s : State) : Out :=
  match regOfNumber r.toNat with
  | none => .next (refuse .badOperand s)
  | some x =>
    if regReadable x s then .next (finish (readReg x s) 0 .none s) else .next (refuse .badOperand s)

/-- WR_REG (41_header_codecs.md R161). -/
def execWrReg (r v : U32) (s : State) : Out :=
  match regOfNumber r.toNat with
  | none => .next (refuse .badOperand s)
  | some x =>
    if regWritable x && fits v (regWidth x) then .next (finish 0 0 .none (writeReg x v s))
    else .next (refuse .badOperand s)

end Sys2Proof.Machine
end

