-- ==== Sys2Proof/Machine/Codecs.lean ====
section
/-! DEFINITION. The per-category codecs: `decode_t` answers `none` for `Malformed` (43_category_codecs.md R200 to
R248; layouts 30_encoding.md R86 to R91). -/

namespace Sys2Proof.Machine

/-- One 0x00 when the length is odd (43_category_codecs.md R201, R221). -/
def padEven (b : Bytes) : Bytes := if b.length % 2 = 1 then b ++ [0] else b

/-! ## STRINGS (type 10) -/

/-- `n` length-prefixed strings; what follows them is ignored (43_category_codecs.md R200, R247). -/
def decodeStringList : Nat → Bytes → Option (List Bytes)
  | 0, _ => some []
  | _ + 1, [] => none
  | n + 1, l :: rest =>
    if l.toNat ≤ rest.length then
      match decodeStringList n (rest.drop l.toNat) with
      | some strs => some (rest.take l.toNat :: strs)
      | none => none
    else none

/-- `decode_10` (43_category_codecs.md R200). -/
def decodeStrings : Bytes → Option Payload
  | [] => none
  | n :: rest =>
    match decodeStringList n.toNat rest with
    | some strs => some (.strings strs)
    | none => none

/-- Each string as its length byte and its bytes (43_category_codecs.md R201). -/
def encodeStringList : List Bytes → Bytes
  | [] => []
  | str :: strs => BitVec.ofNat 8 str.length :: (str ++ encodeStringList strs)

/-- `encode_10` (43_category_codecs.md R201). -/
def encodeStrings (strs : List Bytes) : Bytes := padEven (BitVec.ofNat 8 strs.length :: encodeStringList strs)

/-! ## GENERAL (type 30) -/

/-- `decode_30` (43_category_codecs.md R210). -/
def decodeGeneral (p : Bytes) : Option Payload :=
  if p.length < 32 then none
  else some (.general
    { groupIdx := rd8 p 0, imageIdx := rd8 p 1, orderIdx := rd8 p 2, nameIdx := rd8 p 3,
      coeSdo := flag (rd8 p 5) 0, coeSdoInfo := flag (rd8 p 5) 1,
      coePdoAssign := flag (rd8 p 5) 2, coePdoConfig := flag (rd8 p 5) 3,
      coeUploadAtStart := flag (rd8 p 5) 4, coeSdoComplete := flag (rd8 p 5) 5,
      foeEnabled := flag (rd8 p 6) 0, eoeEnabled := flag (rd8 p 7) 0,
      safeop := flag (rd8 p 11) 0, notlrw := flag (rd8 p 11) 1,
      mboxDll := flag (rd8 p 11) 2, identAlStatus := flag (rd8 p 11) 3,
      identPhysMem := flag (rd8 p 11) 4,
      currentEbus := BitVec.ofInt 16 (rdi16 p 12),
      port0 := lowNibble (rd8 p 16), port1 := highNibble (rd8 p 16),
      port2 := lowNibble (rd8 p 17), port3 := highNibble (rd8 p 17),
      physAddr := rd16 p 18 })

/-- The six CoE flags as byte 5 (43_category_codecs.md R211). -/
def coeByte (g : General) : Byte :=
  bitAt g.coeSdo 0 ||| bitAt g.coeSdoInfo 1 ||| bitAt g.coePdoAssign 2 ||| bitAt g.coePdoConfig 3
    ||| bitAt g.coeUploadAtStart 4 ||| bitAt g.coeSdoComplete 5

/-- The five status flags as byte 11 (43_category_codecs.md R211). -/
def generalStatusByte (g : General) : Byte :=
  bitAt g.safeop 0 ||| bitAt g.notlrw 1 ||| bitAt g.mboxDll 2 ||| bitAt g.identAlStatus 3 ||| bitAt g.identPhysMem 4

/-- `encode_30`, 32 bytes (43_category_codecs.md R211). -/
def encodeGeneral (g : General) : Bytes :=
  [g.groupIdx, g.imageIdx, g.orderIdx, g.nameIdx, 0, coeByte g, bitAt g.foeEnabled 0, bitAt g.eoeEnabled 0]
    ++ (zeros 3 ++ ([generalStatusByte g] ++ (lei16 g.currentEbus.toInt ++ (zeros 2
    ++ ([nibbles g.port0 g.port1, nibbles g.port2 g.port3] ++ (le16 g.physAddr ++ zeros 12))))))

/-! ## FMMU (type 40) -/

/-- `decode_40`, on the list of usages: codes 0x00 and 0xFF are dropped, 1 to 3 kept, others malformed
(43_category_codecs.md R220, 30_encoding.md R98). -/
def decodeUsages : Bytes → Option (List FmmuUsage)
  | [] => some []
  | c :: rest =>
    match decodeUsages rest with
    | none => none
    | some us =>
      if c = 0x00#8 ∨ c = 0xFF#8 then some us
      else if c = 1#8 then some (.outputs :: us)
      else if c = 2#8 then some (.inputs :: us)
      else if c = 3#8 then some (.smStatus :: us)
      else none

/-- `decode_40` (43_category_codecs.md R220). -/
def decodeFmmu (p : Bytes) : Option Payload :=
  match decodeUsages p with
  | some us => some (.fmmu us)
  | none => none

/-- The wire code of a usage (10_state.md R31). -/
def usageByte : FmmuUsage → Byte
  | .outputs => 1
  | .inputs => 2
  | .smStatus => 3

/-- `encode_40` (43_category_codecs.md R221). -/
def encodeFmmu (us : List FmmuUsage) : Bytes := padEven (us.map usageByte)

/-! ## SYNCM (type 41) -/

/-- The type of a wire code; 5 to 255 are reserved (30_encoding.md R89, R98). -/
def syncTypeOf (t : Byte) : Option SyncType :=
  match t.toNat with
  | 0 => some .unused
  | 1 => some .mboxOut
  | 2 => some .mboxIn
  | 3 => some .procOut
  | 4 => some .procIn
  | _ => none

/-- The wire code of a SyncManager type (10_state.md R32). -/
def syncTypeByte : SyncType → Byte
  | .unused => 0
  | .mboxOut => 1
  | .mboxIn => 2
  | .procOut => 3
  | .procIn => 4

/-- `decode_41`, record by record: a partial record or a reserved type is malformed (43_category_codecs.md R225). -/
def decodeSyncEntries : Bytes → Option (List SyncEntry)
  | [] => some []
  | a0 :: a1 :: l0 :: l1 :: c :: st :: en :: t :: rest =>
    match syncTypeOf t, decodeSyncEntries rest with
    | some ty, some es =>
      some ({ physAddr := u16of a0 a1, length := u16of l0 l1, control := c, status := st, enable := en, type := ty } :: es)
    | _, _ => none
  | _ => none

/-- `decode_41` (43_category_codecs.md R225). -/
def decodeSyncM (p : Bytes) : Option Payload :=
  match decodeSyncEntries p with
  | some es => some (.syncM es)
  | none => none

/-- One record; the status byte is always 0 (43_category_codecs.md R226). -/
def encodeSyncEntry (e : SyncEntry) : Bytes :=
  le16 e.physAddr ++ le16 e.length ++ [e.control, 0, e.enable, syncTypeByte e.type]

/-- `encode_41` (43_category_codecs.md R226). -/
def encodeSyncM : List SyncEntry → Bytes
  | [] => []
  | e :: es => encodeSyncEntry e ++ encodeSyncM es

/-! ## TXPDO (type 50) and RXPDO (type 51) -/

/-- Exactly `n` entries of 8 bytes; what follows them is ignored (43_category_codecs.md R230, R247). -/
def decodePdoEntries : Nat → Bytes → Option (List PdoEntry)
  | 0, _ => some []
  | n + 1, i0 :: i1 :: sub :: str :: dt :: bl :: f0 :: f1 :: rest =>
    match decodePdoEntries n rest with
    | some es =>
      some ({ index := u16of i0 i1, subindex := sub, strIdx := str, dataType := dt, bitLen := bl, flags := u16of f0 f1 } :: es)
    | none => none
  | _ + 1, _ => none

/-- `decode_pdo` (43_category_codecs.md R230). -/
def decodePdo (dir : PdoDir) : Bytes → Option Payload
  | i0 :: i1 :: n :: sm :: dc :: nm :: f0 :: f1 :: rest =>
    match decodePdoEntries n.toNat rest with
    | some es =>
      some (.pdo { dir := dir, index := u16of i0 i1, sm := sm, dcSync := dc, nameIdx := nm, flags := u16of f0 f1, entries := es })
    | none => none
  | _ => none

/-- One entry (43_category_codecs.md R231). -/
def encodePdoEntry (e : PdoEntry) : Bytes :=
  le16 e.index ++ [e.subindex, e.strIdx, e.dataType, e.bitLen] ++ le16 e.flags

/-- The entries in order (43_category_codecs.md R231). -/
def encodePdoEntries : List PdoEntry → Bytes
  | [] => []
  | e :: es => encodePdoEntry e ++ encodePdoEntries es

/-- `encode_pdo`; the count written is the list length (43_category_codecs.md R231). -/
def encodePdo (d : Pdo) : Bytes :=
  le16 d.index ++ [BitVec.ofNat 8 d.entries.length, d.sm, d.dcSync, d.nameIdx] ++ le16 d.flags ++ encodePdoEntries d.entries

/-! ## DCLOCK (type 60) -/

/-- `decode_60` (43_category_codecs.md R240). -/
def decodeDClock (p : Bytes) : Option Payload :=
  if p.length < 86 then none
  else some (.dclock
    { cyclicOpEnabled := flag (rd8 p 1) 0, sync0Active := flag (rd8 p 1) 1, sync1Active := flag (rd8 p 1) 2,
      syncPulse := rd16 p 2,
      int0Status := flag (rd8 p 14) 0, int1Status := flag (rd8 p 15) 0,
      cyclicOpStart := rd32 p 16,
      sync0Cycle := rd32 p 32, sync1Cycle := rd32 p 36,
      latch0PosEdge := flag (rd8 p 40) 0, latch0NegEdge := flag (rd8 p 40) 1,
      latch1PosEdge := flag (rd8 p 41) 0, latch1NegEdge := flag (rd8 p 41) 1,
      latch0PosEvent := flag (rd8 p 42) 0, latch0NegEvent := flag (rd8 p 42) 1,
      latch1PosEvent := flag (rd8 p 43) 0, latch1NegEvent := flag (rd8 p 43) 1,
      latch0PosVal := rd32 p 54, latch0NegVal := rd32 p 62,
      latch1PosVal := rd32 p 70, latch1NegVal := rd32 p 78 })

/-- The flags byte 1 (43_category_codecs.md R241). -/
def dcFlagsByte (d : DClock) : Byte := bitAt d.cyclicOpEnabled 0 ||| bitAt d.sync0Active 1 ||| bitAt d.sync1Active 2

/-- A latch byte: bit 0 positive edge, bit 1 negative edge (30_encoding.md R91). -/
def latchByte (pos neg : Bool) : Byte := bitAt pos 0 ||| bitAt neg 1

/-- `encode_60`, 86 bytes (43_category_codecs.md R241). -/
def encodeDClock (d : DClock) : Bytes :=
  [0, dcFlagsByte d] ++ (le16 d.syncPulse ++ (zeros 10 ++ ([bitAt d.int0Status 0, bitAt d.int1Status 0]
    ++ (le32 d.cyclicOpStart ++ (zeros 12 ++ (le32 d.sync0Cycle ++ (le32 d.sync1Cycle
    ++ ([latchByte d.latch0PosEdge d.latch0NegEdge, latchByte d.latch1PosEdge d.latch1NegEdge,
         latchByte d.latch0PosEvent d.latch0NegEvent, latchByte d.latch1PosEvent d.latch1NegEvent]
    ++ (zeros 10 ++ (le32 d.latch0PosVal ++ (zeros 4 ++ (le32 d.latch0NegVal ++ (zeros 4
    ++ (le32 d.latch1PosVal ++ (zeros 4 ++ (le32 d.latch1NegVal ++ zeros 4))))))))))))))))

/-! ## All types -/

/-- `decode_t` of a type with a codec or none where the type has none (43_category_codecs.md R205, R206). -/
def decodePayload (t : U16) (p : Bytes) : Option Payload :=
  match t.toNat with
  | 10 => decodeStrings p
  | 30 => decodeGeneral p
  | 40 => decodeFmmu p
  | 41 => decodeSyncM p
  | 50 => decodePdo .tx p
  | 51 => decodePdo .rx p
  | 60 => decodeDClock p
  | _ => none

/-- `encode_t` of a payload. Datatypes has no encoder (43_category_codecs.md R205) and ENCODE never asks for it
(45_writer.md R299): the arm answers the empty string and no rule reads it (log 16). -/
def encodePayload : Payload → Bytes
  | .strings strs => encodeStrings strs
  | .datatypes => []
  | .general g => encodeGeneral g
  | .fmmu us => encodeFmmu us
  | .syncM es => encodeSyncM es
  | .pdo d => encodePdo d
  | .dclock d => encodeDClock d

/-- The category types APPEND accepts and DECODE or APPEND may store (42_registry.md R171, 10_state.md R28). -/
def categoryTypes : List U16 := [10#16, 20#16, 30#16, 40#16, 41#16, 50#16, 51#16, 60#16]

/-- The type word that agrees with a payload variant (10_state.md R28). -/
def payloadType : Payload → U16
  | .strings _ => 10
  | .datatypes => 20
  | .general _ => 30
  | .fmmu _ => 40
  | .syncM _ => 41
  | .pdo d => match d.dir with
    | .tx => 50
    | .rx => 51
  | .dclock _ => 60

end Sys2Proof.Machine
end

