-- ==== Sys2Proof/Machine/Registry.lean ====
section
/-! DEFINITION. The category registry: APPEND, FIND, REMOVE_LAST, SORT, FIND_NEIGHBOR, RELEASE, RD_CAT
(42_registry.md R170 to R181). -/

namespace Sys2Proof.Machine

/-- `CATS <- CATS ++ [node]` (42_registry.md R170, R172). -/
def catsAppend (c : Category) (s : State) : State := { s with cats := s.cats ++ [c] }

/-- The node APPEND makes of a section of type `t`: Datatypes without payload, else what the codec decodes
(42_registry.md R170, R171). -/
def appendPayload (t : U16) (p : Bytes) : Option Payload :=
  if t = 20#16 then some .datatypes else decodePayload t p

/-- APPEND of the section image `b` (42_registry.md R170), after its range test. -/
def appendSection (b : Bytes) (s : State) : State :=
  if b.length ≠ 4 + 2 * (rd16 b 2).toNat then refuse .badOperand s
  else if !(categoryTypes.contains (rd16 b 0)) then refuse .badOperand s
  else if atCapacity s.config.catCap s.cats.length then refuse .registryFull s
  else
    match appendPayload (rd16 b 0) (b.drop 4) with
    | none => refuse .badOperand s
    | some v =>
      finish (countWord s.cats.length) 0 .none
        (catsAppend { type := rd16 b 0, sizeBytes := 2 * (rd16 b 2).toNat, payload := v } s)

/-- APPEND (42_registry.md R170). -/
def execAppend (a len : U32) (s : State) : Out :=
  if inRange s a len && decide (4 ≤ len.toNat) then .next (appendSection (inOperand s a len) s)
  else .next (refuse .badOperand s)

/-- The least index of a node of type `t` (42_registry.md R173). -/
def firstOfType (t : U16) : List Category → Option Nat
  | [] => none
  | c :: cs =>
    if c.type = t then some 0
    else match firstOfType t cs with
      | some i => some (i + 1)
      | none => none

/-- The answer of FIND: found or not, and the index (42_registry.md R173). -/
def findAnswer (t : U32) (s : State) : State :=
  if fits t 16 then
    match firstOfType (t.setWidth 16) s.cats with
    | some i => finish 1 (countWord i) .none s
    | none => finish 0 0 .none s
  else refuse .badOperand s

/-- FIND (42_registry.md R173). -/
def execFind (t : U32) (s : State) : Out := .next (findAnswer t s)

/-- REMOVE_LAST (42_registry.md R174). -/
def execRemoveLast (s : State) : Out :=
  match s.cats with
  | [] => .next (refuse .registryEmpty s)
  | _ :: _ => .next (finish 0 0 .none { s with cats := s.cats.dropLast })

/-- Put a node before the first one of a type that is not smaller: it came before them (42_registry.md R175). -/
def insertByType (c : Category) : List Category → List Category
  | [] => [c]
  | d :: ds => if c.type.toNat ≤ d.type.toNat then c :: d :: ds else d :: insertByType c ds

/-- The stable sort by ascending type; the result, not the algorithm, is normative (42_registry.md R175). -/
def sortByType : List Category → List Category
  | [] => []
  | c :: cs => insertByType c (sortByType cs)

/-- SORT (42_registry.md R175). -/
def execSort (s : State) : Out := .next (finish 0 0 .none { s with cats := sortByType s.cats })

/-- FIND_NEIGHBOR (42_registry.md R178): the index test comes before the type's width. -/
def execFindNeighbor (i t : U32) (s : State) : Out :=
  if i.toNat < s.cats.length then .next (findAnswer t s) else .next (refuse .indexOutOfRange s)

/-- RELEASE (42_registry.md R180). -/
def execRelease (s : State) : Out :=
  .next (finish 0 0 .none { emptyImage s with w := { s.w with pos := 0, phase := .idle } })

/-- RD_CAT (42_registry.md R181). -/
def execRdCat (i : U32) (s : State) : Out :=
  match s.cats[i.toNat]? with
  | none => .next (refuse .indexOutOfRange s)
  | some c => .next (finish (c.type.setWidth 32) (countWord c.sizeBytes) (.payload c.payload) s)

end Sys2Proof.Machine
end

