-- ==== Sys2Proof/Machine/Strings.lean ====
section
/-! DEFINITION. The string table: STR_ADD, STR_BY_ID, STR_FIND (42_registry.md R182 to R185). -/

namespace Sys2Proof.Machine

/-- The strings of a payload; a payload of another variant has none (log 16). -/
def payloadStrings : Payload → List Bytes
  | .strings strs => strs
  | .datatypes => []
  | .general _ => []
  | .fmmu _ => []
  | .syncM _ => []
  | .pdo _ => []
  | .dclock _ => []

/-- The node a string command names, or the code it is refused with: IndexOutOfRange, then WrongCategoryType
(42_registry.md R182, R184, R185). -/
def stringNode (i : U32) (s : State) : Except Code Category :=
  match s.cats[i.toNat]? with
  | none => .error .indexOutOfRange
  | some c => if c.type = 10#16 then .ok c else .error .wrongCategoryType

/-- The node `c` with one string more; its `size_bytes` is not updated (42_registry.md R182, 10_state.md R28). -/
def addString (x : Bytes) (c : Category) : Category :=
  { c with payload := .strings (payloadStrings c.payload ++ [x]) }

/-- STR_ADD (42_registry.md R182). -/
def execStrAdd (i a len : U32) (s : State) : Out :=
  match stringNode i s with
  | .error e => .next (refuse e s)
  | .ok c =>
    if inRange s a len && decide (len.toNat ≤ 255) && !((payloadStrings c.payload).length == 255) then
      .next (finish (countWord ((payloadStrings c.payload).length + 1)) 0 .none
        { s with cats := s.cats.set i.toNat (addString (inOperand s a len) c) })
    else .next (refuse .badOperand s)

/-- The string with ID `k`: IDs start at 1 and ID 0 names no string (42_registry.md R184). -/
def stringById (k : Nat) (strs : List Bytes) : Option Bytes :=
  match k with
  | 0 => none
  | j + 1 => strs[j]?

/-- STR_BY_ID (42_registry.md R184). -/
def execStrById (i k : U32) (s : State) : Out :=
  match stringNode i s with
  | .error e => .next (refuse e s)
  | .ok c =>
    match stringById k.toNat (payloadStrings c.payload) with
    | some x => .next (finish 1 (countWord x.length) (.bytes x) s)
    | none => .next (finish 0 0 .none s)

/-- The lowest ID whose string is exactly `x`, or 0 (42_registry.md R185). -/
def idOfString (x : Bytes) : List Bytes → Nat
  | [] => 0
  | y :: ys =>
    if y = x then 1
    else match idOfString x ys with
      | 0 => 0
      | j + 1 => j + 2

/-- STR_FIND (42_registry.md R185). -/
def execStrFind (i a len : U32) (s : State) : Out :=
  match stringNode i s with
  | .error e => .next (refuse e s)
  | .ok c =>
    if inRange s a len then
      .next (finish (countWord (idOfString (inOperand s a len) (payloadStrings c.payload))) 0 .none s)
    else .next (refuse .badOperand s)

end Sys2Proof.Machine
end

