-- ==== Sys2Proof/Syntax.lean ====
section
/-! DEFINITION. The instructions of SIIC: one constructor for each row of spec/opcode_table.json. -/

namespace Sys2Proof

/-- Wire instructions carry the bytes their rule names as operand: the 16 bytes `P` of R141, the 112 bytes
`C` of R151, the payload `p` of R200 to R241 (the descriptor's size word is half its length, R83). Host
instructions carry the channel's 32-bit arguments as they arrive, because each command's own pseudocode
tests their width, in its own order (30_encoding.md R101, 60_exceptions.md R332). -/
inductive Instr where
  -- wire instructions (00_scope.md R2; 30_encoding.md R93)
  /-- PREAMBLE, 41_header_codecs.md R141. -/
  | preamble (p : Bytes)
  /-- STDCONFIG, 41_header_codecs.md R151. -/
  | stdconfig (c : Bytes)
  /-- STRINGS, type 10, 43_category_codecs.md R200. -/
  | strings (p : Bytes)
  /-- DATATYPES, type 20, 43_category_codecs.md R205. -/
  | datatypes (p : Bytes)
  /-- GENERAL, type 30, 43_category_codecs.md R210. -/
  | general (p : Bytes)
  /-- FMMU, type 40, 43_category_codecs.md R220. -/
  | fmmu (p : Bytes)
  /-- SYNCM, type 41, 43_category_codecs.md R225. -/
  | syncm (p : Bytes)
  /-- TXPDO, type 50, 43_category_codecs.md R230. -/
  | txpdo (p : Bytes)
  /-- RXPDO, type 51, 43_category_codecs.md R230. -/
  | rxpdo (p : Bytes)
  /-- DCLOCK, type 60, 43_category_codecs.md R240. -/
  | dclock (p : Bytes)
  /-- END, type 0xFFFF, 44_walker.md R272. -/
  | endMark
  /-- UNKNOWN, any other type word `t`, 43_category_codecs.md R206. -/
  | unknown (t : U16) (p : Bytes)
  -- host instructions (30_encoding.md R100)
  /-- CRC_INIT, 40_crc8.md R125. -/
  | crcInit
  /-- CRC_SET, 40_crc8.md R126. -/
  | crcSet (v : U32)
  /-- CRC_BIT, 40_crc8.md R127. -/
  | crcBit (d : U32)
  /-- CRC_UPDATE, 40_crc8.md R128. -/
  | crcUpdate (b : U32)
  /-- CRC_COMPUTE, 40_crc8.md R129. -/
  | crcCompute (a len : U32)
  /-- DECODE, 44_walker.md R260. -/
  | decode (n : U32)
  /-- ENCODE, 45_writer.md R290. -/
  | encode (cap opts : U32)
  /-- RELEASE, 42_registry.md R180. -/
  | release
  /-- APPEND, 42_registry.md R170. -/
  | append (a len : U32)
  /-- FIND, 42_registry.md R173. -/
  | find (t : U32)
  /-- REMOVE_LAST, 42_registry.md R174. -/
  | removeLast
  /-- SORT, 42_registry.md R175. -/
  | sort
  /-- FIND_NEIGHBOR, 42_registry.md R178. -/
  | findNeighbor (i t : U32)
  /-- RD_CAT, 42_registry.md R181. -/
  | rdCat (i : U32)
  /-- STR_ADD, 42_registry.md R182. -/
  | strAdd (i a len : U32)
  /-- STR_BY_ID, 42_registry.md R184. -/
  | strById (i k : U32)
  /-- STR_FIND, 42_registry.md R185. -/
  | strFind (i a len : U32)
  /-- RD_REG, 41_header_codecs.md R160. -/
  | rdReg (r : U32)
  /-- WR_REG, 41_header_codecs.md R161. -/
  | wrReg (r v : U32)
  /-- RD_DIAG, 60_exceptions.md R333. -/
  | rdDiag (k : U32)
  deriving DecidableEq, Repr

end Sys2Proof
end

