-- ==== Sys2Proof/WellFormed.lean ====
section
/-! DEFINITION. Which terms of `Instr` stand for an item the wire format can hold (30_encoding.md R80 to R95). -/

namespace Sys2Proof

/-- The section types with a row of their own: the eight category types (00_scope.md R5) and the terminator
(30_encoding.md R93, R94). -/
def knownTypes : List U16 := [10#16, 20#16, 30#16, 40#16, 41#16, 50#16, 51#16, 60#16, 0xFFFF#16]

/-- A payload the 16-bit `size_words` can express: even, at most 131070 bytes (30_encoding.md R83, R84). -/
def payloadWf (p : Bytes) : Bool := p.length % 2 == 0 && decide (p.length ≤ Config.maxPayload)

/-- Well-formed instructions. A host command takes every 32-bit argument: a wrong one is refused by the
command itself (30_encoding.md R101). -/
def Instr.wf : Instr → Bool
  | .preamble p => p.length == Config.preBytes
  | .stdconfig c => c.length == Config.cfgBytes
  | .strings p => payloadWf p
  | .datatypes p => payloadWf p
  | .general p => payloadWf p
  | .fmmu p => payloadWf p
  | .syncm p => payloadWf p
  | .txpdo p => payloadWf p
  | .rxpdo p => payloadWf p
  | .dclock p => payloadWf p
  | .endMark => true
  | .unknown t p => !(knownTypes.contains t) && payloadWf p
  | .crcInit => true
  | .crcSet _ => true
  | .crcBit _ => true
  | .crcUpdate _ => true
  | .crcCompute _ _ => true
  | .decode _ => true
  | .encode _ _ => true
  | .release => true
  | .append _ _ => true
  | .find _ => true
  | .removeLast => true
  | .sort => true
  | .findNeighbor _ _ => true
  | .rdCat _ => true
  | .strAdd _ _ _ => true
  | .strById _ _ => true
  | .strFind _ _ _ => true
  | .rdReg _ => true
  | .wrReg _ _ => true
  | .rdDiag _ => true

end Sys2Proof
end

