-- ==== Sys2Proof/Decode.lean ====
section
/-! DEFINITION. The decoder, total on any command and any bytes, and after it the encoder
(30_encoding.md R80 to R85, R93, R100; 44_walker.md R264). -/

namespace Sys2Proof

open Machine

/-- Why no instruction could be read. The walker turns all but the first into a fatal error (44_walker.md R262,
R263, R264); a command channel turns the first into a refusal (30_encoding.md R101). -/
inductive DecodeError where
  /-- A command code not in the table of 30_encoding.md R100. -/
  | badCommand
  /-- Fewer than 16 bytes for the preamble (44_walker.md R262). -/
  | headerShort
  /-- Fewer than 112 bytes for the standard config (44_walker.md R263). -/
  | configShort
  /-- Fewer than 2 bytes at a descriptor boundary (44_walker.md R265). -/
  | noTypeWord
  /-- 2 or 3 bytes at a descriptor boundary and type `t` other than 0xFFFF (44_walker.md R265). -/
  | noSizeWord (t : U16)
  /-- The payload of `w` words that section `t` declares does not fit (44_walker.md R265). -/
  | payloadShort (t w : U16)
  deriving DecidableEq, Repr

/-- Where an item of an image stands: the preamble and the standard config are selected by position
(30_encoding.md R80), every later item by its type word. -/
inductive WireSlot where
  | preamble
  | stdConfig
  | descriptor
  deriving DecidableEq, Repr

/-- The two encodings of 30_encoding.md: the host command tuple, and the bytes of one item of an image. -/
inductive Encoding where
  | command (c : Command)
  | item (slot : WireSlot) (b : Bytes)
  deriving DecidableEq, Repr

/-! ## Host commands -/

/-- The command table of 30_encoding.md R100; unused arguments are ignored. -/
def decodeCommand (c : Command) : Except DecodeError Instr :=
  match c.code.toNat with
  | 0x01 => .ok .crcInit
  | 0x02 => .ok (.crcSet c.arg0)
  | 0x03 => .ok (.crcBit c.arg0)
  | 0x04 => .ok (.crcUpdate c.arg0)
  | 0x05 => .ok (.crcCompute c.arg0 c.arg1)
  | 0x10 => .ok (.decode c.arg0)
  | 0x11 => .ok (.encode c.arg0 c.arg1)
  | 0x12 => .ok .release
  | 0x20 => .ok (.append c.arg0 c.arg1)
  | 0x21 => .ok (.find c.arg0)
  | 0x22 => .ok .removeLast
  | 0x23 => .ok .sort
  | 0x24 => .ok (.findNeighbor c.arg0 c.arg1)
  | 0x25 => .ok (.rdCat c.arg0)
  | 0x28 => .ok (.strAdd c.arg0 c.arg1 c.arg2)
  | 0x29 => .ok (.strById c.arg0 c.arg1)
  | 0x2A => .ok (.strFind c.arg0 c.arg1 c.arg2)
  | 0x30 => .ok (.rdReg c.arg0)
  | 0x31 => .ok (.wrReg c.arg0 c.arg1)
  | 0x32 => .ok (.rdDiag c.arg0)
  | _ => .error .badCommand

/-! ## Wire items -/

/-- The row of 30_encoding.md R93 that the whole 16-bit type word selects; bit 15 is part of the match (R95). -/
def sectionInstr (t : U16) (p : Bytes) : Instr :=
  match t.toNat with
  | 10 => .strings p
  | 20 => .datatypes p
  | 30 => .general p
  | 40 => .fmmu p
  | 41 => .syncm p
  | 50 => .txpdo p
  | 51 => .rxpdo p
  | 60 => .dclock p
  | _ => .unknown t p

/-- One item at a descriptor boundary, from the bytes left in the buffer; the order of the tests is that of
44_walker.md R264: type word, terminator, size word, payload length, and only then the type. -/
def decodeSection (b : Bytes) : Except DecodeError Instr :=
  if b.length < 2 then .error .noTypeWord
  else if rd16 b 0 = Config.endType then .ok .endMark
  else if b.length < 4 then .error (.noSizeWord (rd16 b 0))
  else if 2 * (rd16 b 2).toNat > b.length - 4 then .error (.payloadShort (rd16 b 0) (rd16 b 2))
  else .ok (sectionInstr (rd16 b 0) ((b.drop 4).take (2 * (rd16 b 2).toNat)))

/-- One item of an image from the bytes left in the buffer at its slot (44_walker.md R262, R263, R264). -/
def decodeItem : WireSlot → Bytes → Except DecodeError Instr
  | .preamble, b => if b.length < Config.preBytes then .error .headerShort else .ok (.preamble (b.take Config.preBytes))
  | .stdConfig, b => if b.length < Config.cfgBytes then .error .configShort else .ok (.stdconfig (b.take Config.cfgBytes))
  | .descriptor, b => decodeSection b

/-- The decoder: a host command or an item of an image, or the reason it is neither. -/
def decode : Encoding → Except DecodeError Instr
  | .command c => decodeCommand c
  | .item slot b => decodeItem slot b

/-! ## The encoder -/

/-- A section: type word, size in words, payload (30_encoding.md R83). -/
def sectionBytes (t : U16) (p : Bytes) : Bytes := le16 t ++ le16 (BitVec.ofNat 16 (p.length / 2)) ++ p

/-- A command with its unused arguments 0 (30_encoding.md R100). -/
def commandOf (code : Byte) (a0 a1 a2 : U32) : Encoding := .command ⟨code, a0, a1, a2⟩

/-- The encoding of an instruction, from the tables of 30_encoding.md R81 to R91 and R100. -/
def encode : Instr → Encoding
  | .preamble p => .item .preamble p
  | .stdconfig c => .item .stdConfig c
  | .strings p => .item .descriptor (sectionBytes 10 p)
  | .datatypes p => .item .descriptor (sectionBytes 20 p)
  | .general p => .item .descriptor (sectionBytes 30 p)
  | .fmmu p => .item .descriptor (sectionBytes 40 p)
  | .syncm p => .item .descriptor (sectionBytes 41 p)
  | .txpdo p => .item .descriptor (sectionBytes 50 p)
  | .rxpdo p => .item .descriptor (sectionBytes 51 p)
  | .dclock p => .item .descriptor (sectionBytes 60 p)
  | .endMark => .item .descriptor [0xFF, 0xFF]
  | .unknown t p => .item .descriptor (sectionBytes t p)
  | .crcInit => commandOf 0x01 0 0 0
  | .crcSet v => commandOf 0x02 v 0 0
  | .crcBit d => commandOf 0x03 d 0 0
  | .crcUpdate b => commandOf 0x04 b 0 0
  | .crcCompute a len => commandOf 0x05 a len 0
  | .decode n => commandOf 0x10 n 0 0
  | .encode cap opts => commandOf 0x11 cap opts 0
  | .release => commandOf 0x12 0 0 0
  | .append a len => commandOf 0x20 a len 0
  | .find t => commandOf 0x21 t 0 0
  | .removeLast => commandOf 0x22 0 0 0
  | .sort => commandOf 0x23 0 0 0
  | .findNeighbor i t => commandOf 0x24 i t 0
  | .rdCat i => commandOf 0x25 i 0 0
  | .strAdd i a len => commandOf 0x28 i a len
  | .strById i k => commandOf 0x29 i k 0
  | .strFind i a len => commandOf 0x2A i a len
  | .rdReg r => commandOf 0x30 r 0 0
  | .wrReg r v => commandOf 0x31 r v 0
  | .rdDiag k => commandOf 0x32 k 0 0

/-- How many bytes an item takes in an image: `4 + 2 * size_words` for a section, told by the descriptor alone
(30_encoding.md R84), 2 for the terminator (R85); 0 for a host command, which stands in no image. -/
def Instr.imageLength (i : Instr) : Nat :=
  match Sys2Proof.encode i with
  | .command _ => 0
  | .item _ b => b.length

/-! ## Words of the opcode table -/

/-- A command from the bits of its tuple, code lowest, then arg0, arg1, arg2 (log 14). -/
def commandOfWord (w : Nat) : Command :=
  { code := BitVec.ofNat 8 w, arg0 := BitVec.ofNat 32 (w / 2 ^ 8), arg1 := BitVec.ofNat 32 (w / 2 ^ 40),
    arg2 := BitVec.ofNat 32 (w / 2 ^ 72) }

/-- The bytes of a section whose given bits are `w`: `n` bytes of it, and zeros up to the section's length. -/
def sectionOfWord (n w : Nat) : Bytes := natBytes (max n (4 + 2 * (w / 2 ^ 16 % 2 ^ 16))) w

/-- The encoding an opcode-table word stands for (log 14): an odd number of bytes is a host command (its code is
one byte, 30_encoding.md R100), an even number an item of an image (a type word is two bytes, R83); the two items
selected by position are told by their own widths of 16 and 112 bytes (R81, R82). -/
def tableEncoding (nbits w : Nat) : Encoding :=
  let v := w % 2 ^ nbits
  if nbits / 8 % 2 = 1 then .command (commandOfWord v)
  else if nbits / 8 = Config.preBytes then .item .preamble (natBytes Config.preBytes v)
  else if nbits / 8 = Config.cfgBytes then .item .stdConfig (natBytes Config.cfgBytes v)
  else .item .descriptor (sectionOfWord (nbits / 8) v)

/-- The instruction the decoder reads from an opcode-table word. -/
def decodeTableWord (nbits w : Nat) : Option Instr :=
  match decode (tableEncoding nbits w) with
  | .ok i => some i
  | .error _ => none

end Sys2Proof
end

