-- ==== Sys2Proof/Machine/Walker.lean ====
section
/-! DEFINITION. The container walker: the meaning of each wire instruction, the fetch at `W.pos`, and the DECODE
command that runs them (44_walker.md; 41_header_codecs.md R141, R151; 43_category_codecs.md). -/

namespace Sys2Proof.Machine

/-! ## Wire instructions -/

/-- `W.pos <- 16 ; W.phase <- StdConfig` (41_header_codecs.md R141, 44_walker.md R262). -/
def enterStdConfig (s : State) : State := { s with w := { s.w with pos := 16, phase := .stdConfig } }

/-- PREAMBLE (41_header_codecs.md R141): the registers, the flag, and a diagnostic when the residue is not 0. -/
def execPreamble (p : Bytes) (s : State) : Out :=
  match checksumFlag p with
  | .valid => .next (enterStdConfig { s with pre := loadPreamble p .valid })
  | cv => .next (withDiag .checksumInvalid 0 0 enterStdConfig { s with pre := loadPreamble p cv })

/-- STDCONFIG (41_header_codecs.md R151, 44_walker.md R263). -/
def execStdconfig (c : Bytes) (s : State) : Out :=
  .next { s with cfg := loadStdConfig c, w := { s.w with pos := 128, phase := .inSection } }

/-- `W.sec_type <- t ; W.sec_words <- w` (44_walker.md R264). -/
def noteSection (t w : U16) (s : State) : State := { s with w := { s.w with secType := t, secWords := w } }

/-- `W.pos <- q + 4 + sb` (44_walker.md R271). -/
def advance (sb : Nat) (s : State) : State :=
  { s with w := { s.w with pos := s.w.pos + BitVec.ofNat 32 (4 + sb) } }

/-- A section of a known type whose codec answers `v` (44_walker.md R270): malformed and registry-full are fatal,
else the node is appended and the cursor moves on. -/
def storeSection (t : U16) (v : Option Payload) (p : Bytes) (s : State) : State :=
  let s := noteSection t (BitVec.ofNat 16 (p.length / 2)) s
  match v with
  | none => raiseDecode .malformedCategory t s.w.pos s
  | some v =>
    if atCapacity s.config.catCap s.cats.length then raiseDecode .resourceExhausted t s.w.pos s
    else advance p.length (catsAppend { type := t, sizeBytes := p.length, payload := v } s)

/-- A section that is stepped over with the diagnostic `c`; its payload is not looked at (44_walker.md R270, R277). -/
def skipSection (c : Code) (t : U16) (p : Bytes) (s : State) : State :=
  let s := noteSection t (BitVec.ofNat 16 (p.length / 2)) s
  withDiag c t s.w.pos (advance p.length) s

/-- STRINGS (43_category_codecs.md R200). -/
def execStrings (p : Bytes) (s : State) : Out := .next (storeSection 10 (decodeStrings p) p s)

/-- DATATYPES: skipped with the diagnostic UnimplementedCategory (43_category_codecs.md R205). -/
def execDatatypes (p : Bytes) (s : State) : Out := .next (skipSection .unimplementedCategory 20 p s)

/-- GENERAL (43_category_codecs.md R210). -/
def execGeneral (p : Bytes) (s : State) : Out := .next (storeSection 30 (decodeGeneral p) p s)

/-- FMMU (43_category_codecs.md R220). -/
def execFmmu (p : Bytes) (s : State) : Out := .next (storeSection 40 (decodeFmmu p) p s)

/-- SYNCM (43_category_codecs.md R225). -/
def execSyncm (p : Bytes) (s : State) : Out := .next (storeSection 41 (decodeSyncM p) p s)

/-- TXPDO (43_category_codecs.md R230). -/
def execTxpdo (p : Bytes) (s : State) : Out := .next (storeSection 50 (decodePdo .tx p) p s)

/-- RXPDO (43_category_codecs.md R230). -/
def execRxpdo (p : Bytes) (s : State) : Out := .next (storeSection 51 (decodePdo .rx p) p s)

/-- DCLOCK (43_category_codecs.md R240). -/
def execDclock (p : Bytes) (s : State) : Out := .next (storeSection 60 (decodeDClock p) p s)

/-- UNKNOWN: skipped with the diagnostic UnknownCategory (43_category_codecs.md R206). -/
def execUnknown (t : U16) (p : Bytes) (s : State) : Out := .next (skipSection .unknownCategory t p s)

/-- END: the cursor moves over the type word, the phase is Terminal, and DECODE ends ok (44_walker.md R272, R273). -/
def execEndMark (s : State) : Out :=
  .next (finish (s.w.pos + 2) (countWord s.diags.length) .none
    { s with w := { s.w with pos := s.w.pos + 2, phase := .terminal } })

/-! ## Fetch -/

/-- The item at the cursor, from the bytes of `IN[0..n)` that are left (44_walker.md R262, R263, R264). -/
def fetchItem (s : State) : Except DecodeError Instr :=
  match s.w.phase with
  | .preamble => decodeItem .preamble (memRead s 0 s.w.limit.toNat)
  | .stdConfig => decodeItem .stdConfig (memRead s 16 (s.w.limit.toNat - 16))
  | .inSection | .idle | .terminal | .failed =>
    decodeItem .descriptor (memRead s s.w.pos.toNat (s.w.limit.toNat - s.w.pos.toNat))

/-- What a failed fetch does: the walker's fatal errors (44_walker.md R262 to R265), and for a command code that is
not in the table the refusal BadCommand (30_encoding.md R101). -/
def fetchFailed (e : DecodeError) (s : State) : State :=
  match e with
  | .badCommand => refuse .badCommand s
  | .headerShort => raiseDecode .malformedHeader 0 0 s
  | .configShort => raiseDecode .truncatedBuffer 0 16 s
  | .noTypeWord => raiseDecode .missingTerminator 0 s.w.pos s
  | .noSizeWord t => raiseDecode .truncatedBuffer t s.w.pos s
  | .payloadShort t w => raiseDecode .truncatedBuffer t s.w.pos (noteSection t w s)

/-! ## The DECODE command -/

/-- The meaning of a wire instruction. A host instruction is never fetched from an image and changes nothing here. -/
def execWire (i : Instr) (s : State) : Out :=
  match i with
  | .preamble p => execPreamble p s
  | .stdconfig c => execStdconfig c s
  | .strings p => execStrings p s
  | .datatypes p => execDatatypes p s
  | .general p => execGeneral p s
  | .fmmu p => execFmmu p s
  | .syncm p => execSyncm p s
  | .txpdo p => execTxpdo p s
  | .rxpdo p => execRxpdo p s
  | .dclock p => execDclock p s
  | .endMark => execEndMark s
  | .unknown t p => execUnknown t p s
  | .crcInit | .crcSet _ | .crcBit _ | .crcUpdate _ | .crcCompute _ _ | .decode _ | .encode _ _ | .release
  | .append _ _ | .find _ | .removeLast | .sort | .findNeighbor _ _ | .rdCat _ | .strAdd _ _ _ | .strById _ _
  | .strFind _ _ _ | .rdReg _ | .wrReg _ _ | .rdDiag _ => .next s

/-- One step of the small-step machine of 44_walker.md: fetch the item at the cursor and execute it (R262 to R264). -/
def walkStep (s : State) : Out :=
  match fetchItem s with
  | .error e => .next (fetchFailed e s)
  | .ok i => execWire i s

/-- Up to `k` steps of the walk, until it is over (44_walker.md R260). -/
def runWalk : Nat → State → Out
  | 0, s => .next s
  | k + 1, s =>
    if walking s.w.phase then
      match walkStep s with
      | .next t => runWalk k t
      | .fault f => .fault f
      | .refused r => .refused r
    else .next s

/-- `start(n)` (44_walker.md R261). -/
def startDecode (n : U32) (s : State) : State :=
  { emptyImage s with diags := [], err := ErrRec.zero, w := { s.w with pos := 0, phase := .preamble, limit := n } }

/-- A number of steps that no walk over `n` bytes exceeds (44_walker.md R276, 70_reset_and_hazards.md R380). -/
def walkBound (n : U32) : Nat := n.toNat / 4 + 4

/-- DECODE (44_walker.md R260): the whole walk, as one step for the host (00_scope.md R11; log 6). -/
def execDecode (n : U32) (s : State) : Out :=
  if n.toNat ≤ s.config.inCap.toNat then runWalk (walkBound n) (startDecode n s) else .next (refuse .badOperand s)

end Sys2Proof.Machine
end

