-- ==== Sys2Proof/Machine/Writer.lean ====
section
/-! DEFINITION. The writer and the ENCODE command (45_writer.md; 41_header_codecs.md R145, R152). A step answers
`.ok s` when the command goes on from `s`, `.error s` when a `raise` ended it in `s`. -/

namespace Sys2Proof.Machine

/-- `start()` (45_writer.md R291). -/
def startEncode (opts : BitVec 3) (s : State) : State :=
  { invalidateOut s with err := ErrRec.zero, e := { s.e with wpos := 0, opts := opts } }

/-- Write one unit at the cursor and move the cursor behind it (45_writer.md R301, R302). -/
def writeUnit (b : Bytes) (s : State) : State :=
  { memWrite s.e.wpos.toNat b s with e := { s.e with wpos := s.e.wpos + BitVec.ofNat 32 b.length } }

/-- The unit `b` ends above `cap` (45_writer.md R303). -/
def overflows (cap : U32) (b : Bytes) (s : State) : Bool := decide (cap.toNat < s.e.wpos.toNat + b.length)

/-- Capacity precheck against the declared EEPROM size (45_writer.md R292). -/
def capacityStep (cap : U32) (s : State) : Except State State :=
  if cap.toNat < eepromBytes s.cfg.eepromCode then .error (raiseEncode .bufferTooSmall 0 0 s) else .ok s

/-- Preamble step: the bytes are written only when they fold to 0 (45_writer.md R293, 41_header_codecs.md R145). -/
def preambleStep (s : State) : Except State State :=
  if crcFold Config.crcSeed (encodePreamble s.pre) = 0 then .ok (writeUnit (encodePreamble s.pre) s)
  else .error (raiseEncode .checksumInconsistent 0 14 s)

/-- Standard-config step (45_writer.md R294). -/
def stdConfigStep (s : State) : State := writeUnit (encodeStdConfig s.cfg) s

/-- Category step for the node `c` at index `k` (45_writer.md R295 to R303). -/
def categoryStep (cap : U32) (k : Nat) (c : Category) (s : State) : Except State State :=
  let s := { s with e := { s.e with idx := k } }
  if suppressed s.e.opts c.type then .ok s
  else if c.type = 20#16 then .error (raiseEncode .unimplementedCategory 20 s.e.wpos s)
  else if Config.maxPayload < (encodePayload c.payload).length then .error (raiseEncode .sectionTooLarge c.type s.e.wpos s)
  else if overflows cap (sectionBytes c.type (encodePayload c.payload)) s then
    .error (raiseEncode .bufferTooSmall c.type s.e.wpos s)
  else .ok (writeUnit (sectionBytes c.type (encodePayload c.payload)) s)

/-- Every node from index `k` on, in list order (45_writer.md R290, R295). -/
def categorySteps (cap : U32) : Nat → List Category → State → Except State State
  | _, [], s => .ok s
  | k, c :: cs, s =>
    match categoryStep cap k c s with
    | .error t => .error t
    | .ok t => categorySteps cap (k + 1) cs t

/-- Terminator step: the type word alone (45_writer.md R302). -/
def terminatorStep (cap : U32) (s : State) : Except State State :=
  if overflows cap [0xFF, 0xFF] s then .error (raiseEncode .bufferTooSmall 0xFFFF s.e.wpos s)
  else .ok (writeUnit [0xFF, 0xFF] s)

/-- Ending ok (45_writer.md R304). -/
def finishEncode (s : State) : State := finish s.e.wpos 0 .none { s with outLen := s.e.wpos, outValid := true }

/-- The steps of ENCODE after its start, in the order of 45_writer.md R290 and R306. -/
def encodeSteps (cap : U32) (s : State) : Except State State :=
  (capacityStep cap s).bind fun s =>
  (preambleStep s).bind fun s =>
  (categorySteps cap 0 (stdConfigStep s).cats (stdConfigStep s)).bind fun s =>
  terminatorStep cap s

/-- ENCODE (45_writer.md R290), one step for the host (00_scope.md R11). -/
def execEncode (cap opts : U32) (s : State) : Out :=
  if decide (cap.toNat ≤ s.config.outCapMax.toNat) && fits opts 3 then
    match encodeSteps cap (startEncode (opts.setWidth 3) s) with
    | .ok t => .next (finishEncode t)
    | .error t => .next t
  else .next (refuse .badOperand s)

end Sys2Proof.Machine
end

