-- ==== Sys2Proof/Machine/Dispatch.lean ====
section
/-! DEFINITION. `exec`: one arm per constructor of `Instr`. -/

namespace Sys2Proof.Machine

def exec (i : Instr) (s : State) : Host.Outcome State Fault Refusal :=
  match i with
  -- wire instructions
  | .preamble p => Sys2Proof.Machine.execPreamble p s
  | .stdconfig c => Sys2Proof.Machine.execStdconfig c s
  | .strings p => Sys2Proof.Machine.execStrings p s
  | .datatypes p => Sys2Proof.Machine.execDatatypes p s
  | .general p => Sys2Proof.Machine.execGeneral p s
  | .fmmu p => Sys2Proof.Machine.execFmmu p s
  | .syncm p => Sys2Proof.Machine.execSyncm p s
  | .txpdo p => Sys2Proof.Machine.execTxpdo p s
  | .rxpdo p => Sys2Proof.Machine.execRxpdo p s
  | .dclock p => Sys2Proof.Machine.execDclock p s
  | .endMark => Sys2Proof.Machine.execEndMark s
  | .unknown t p => Sys2Proof.Machine.execUnknown t p s
  -- host commands
  | .crcInit => Sys2Proof.Machine.execCrcInit s
  | .crcSet v => Sys2Proof.Machine.execCrcSet v s
  | .crcBit d => Sys2Proof.Machine.execCrcBit d s
  | .crcUpdate b => Sys2Proof.Machine.execCrcUpdate b s
  | .crcCompute a len => Sys2Proof.Machine.execCrcCompute a len s
  | .decode n => Sys2Proof.Machine.execDecode n s
  | .encode cap opts => Sys2Proof.Machine.execEncode cap opts s
  | .release => Sys2Proof.Machine.execRelease s
  | .append a len => Sys2Proof.Machine.execAppend a len s
  | .find t => Sys2Proof.Machine.execFind t s
  | .removeLast => Sys2Proof.Machine.execRemoveLast s
  | .sort => Sys2Proof.Machine.execSort s
  | .findNeighbor j t => Sys2Proof.Machine.execFindNeighbor j t s
  | .rdCat j => Sys2Proof.Machine.execRdCat j s
  | .strAdd j a len => Sys2Proof.Machine.execStrAdd j a len s
  | .strById j k => Sys2Proof.Machine.execStrById j k s
  | .strFind j a len => Sys2Proof.Machine.execStrFind j a len s
  | .rdReg r => Sys2Proof.Machine.execRdReg r s
  | .wrReg r v => Sys2Proof.Machine.execWrReg r v s
  | .rdDiag k => Sys2Proof.Machine.execRdDiag k s

end Sys2Proof.Machine
end

