-- ==== Sys2Proof/Machine/Events.lean ====
section
/-! DEFINITION. The host's side of the machine: its writes of IN, and how an encoding is placed where `step` fetches
(20_memory.md R61; log 7, log 8, log 14). -/

namespace Sys2Proof.Machine

/-- A host write of IN; a byte without a 32-bit address does not exist (20_memory.md R60, R61). -/
def hostWrite (a : U32) (b : Bytes) (s : State) : Out :=
  if a.toNat + b.length ≤ spaceSize then .next (hostWriteIn a.toNat b s) else .fault .hostWriteOutsideIn

/-- The walk stands at `pos` in phase `ph` with the bytes `b` there, and IN ends behind them. -/
def placeItem (pos : U32) (ph : Phase) (b : Bytes) (s : State) : State :=
  hostWriteIn pos.toNat b
    { s with w := { s.w with pos := pos, phase := ph, limit := BitVec.ofNat 32 (pos.toNat + b.length) } }

/-- Where the next section of an image stands: at the cursor of a walk in progress, else at 0x80 (20_memory.md R63). -/
def sectionStart (w : Walker) : U32 :=
  match w.phase with
  | .inSection => w.pos
  | .idle | .preamble | .stdConfig | .terminal | .failed => 128

/-- The phase a command is accepted in: a walk in progress is given up. -/
def acceptingPhase (ph : Phase) : Phase := if walking ph then .idle else ph

/-- `s` with `x` where the very next `step` fetches: a command at the head of the host's events, an item of an image
in IN at the position of its slot. -/
def placeEncoding (x : Encoding) (s : State) : State :=
  match x with
  | .command c => { s with host := .command c :: s.host, w := { s.w with phase := acceptingPhase s.w.phase } }
  | .item .preamble b => placeItem 0 .preamble b s
  | .item .stdConfig b => placeItem 16 .stdConfig b s
  | .item .descriptor b => placeItem (sectionStart s.w) .inSection b s

end Sys2Proof.Machine
end

