-- ==== Sys2Proof/Machine/Step.lean ====
section
/-! DEFINITION. One step of the machine, and where it fetches its next instruction (00_scope.md R2, R11; log 6, log 7). -/

namespace Sys2Proof.Machine

/-- One step. While a walk is in progress it fetches and executes the item at the cursor, and no command is accepted
(30_encoding.md R99); else it takes the host's next event: a command is decoded and executed whole. With no event
pending the block waits. -/
def step (s : State) : Host.Outcome State Fault Refusal :=
  if walking s.w.phase then
    match fetchItem s with
    | .error e => .next (fetchFailed e s)
    | .ok i => exec i s
  else
    match s.host with
    | [] => .next s
    | .command c :: rest =>
      match decode (.command c) with
      | .error e => .next (fetchFailed e { s with host := rest })
      | .ok i => exec i { s with host := rest }
    | .writeIn a b :: rest => hostWrite a b { s with host := rest }
    | .rst :: rest => .next (resetEvent { s with host := rest })

/-- `s` with the opcode-table word `w` where the very next `step` fetches (log 14). -/
def State.withFetchWord (s : State) (nbits w : Nat) : State := placeEncoding (tableEncoding nbits w) s

end Sys2Proof.Machine
end

