-- ==== Sys2Proof/Safety.lean ====
section
/-! DEFINITION. What counts as a safe state and how a command may end, in the terms the statements use
(10_state.md R49; 00_scope.md R10; 45_writer.md R310 to R313). -/

namespace Sys2Proof.Machine

/-! ## How a command ends -/

/-- A command can be accepted: no walk is in progress (10_state.md R39). -/
def accepting (s : State) : Bool :=
  match s.w.phase with
  | .idle => true
  | .terminal => true
  | .failed => true
  | .preamble => false
  | .stdConfig => false
  | .inSection => false

/-- The codes of refusals (60_exceptions.md R321). -/
def refusalCodes : List Byte := [0x30, 0x31, 0x32, 0x33, 0x35, 0x36]

/-- The codes of DECODE's fatal errors (60_exceptions.md R321). -/
def decodeErrorCodes : List Byte := [0x01, 0x02, 0x03, 0x04, 0x05]

/-- The codes of ENCODE's fatal errors (60_exceptions.md R321). -/
def encodeErrorCodes : List Byte := [0x12, 0x21, 0x22, 0x23]

/-- The codes of diagnostics (60_exceptions.md R321). -/
def diagCodes : List Byte := [0x10, 0x11, 0x12]

/-- Every code STATUS can hold (60_exceptions.md R321). -/
def statusCodes : List Byte := 0x00 :: (decodeErrorCodes ++ encodeErrorCodes ++ refusalCodes)

/-- The state after a refusal with the code `c`: STATUS and the response, nothing else (60_exceptions.md R332). -/
def afterRefusal (c : Byte) (s : State) : State :=
  { s with status := c, rsp := { status := c, val0 := 0, val1 := 0, result := .none } }

/-- The state after DECODE, standing at `s`, ended by the fatal error `c` at `(t, p)` (44_walker.md R274,
60_exceptions.md R330). OUT has no value then and OUT_LEN a free one (log 4, log 5). -/
def afterDecodeError (c : Byte) (t : U16) (p : U32) (s : State) : State :=
  { s with err := { code := c, secType := t, pos := p }, pre := Preamble.empty, cfg := StdConfig.empty, cats := [],
           diags := [], out := [], outValid := false, outLen := Config.openOutLen s.freeCount,
           freeCount := s.freeCount + 1, w := { s.w with pos := p, phase := .failed }, status := c,
           rsp := { status := c, val0 := p, val1 := 0, result := .none } }

/-- `t` is what ENCODE, started in `s`, leaves when the fatal error `c` at `(ty, p)` ends it with the cursor at `wpos`:
the record, STATUS, the response `(c, 0, 0)` and OUT_VALID 0; the image and all that ENCODE does not touch as before
(45_writer.md R290, R305). -/
def encodeFailed (c : Byte) (ty : U16) (p wpos : U32) (s t : State) : Prop :=
  t.err = { code := c, secType := ty, pos := p } ∧ t.status = c ∧
    t.rsp = { status := c, val0 := 0, val1 := 0, result := .none } ∧ t.e.wpos = wpos ∧ t.outValid = false ∧
    t.pre = s.pre ∧ t.cfg = s.cfg ∧ t.cats = s.cats ∧ t.crc = s.crc ∧ t.diags = s.diags ∧ t.w = s.w ∧
    t.input = s.input ∧ t.host = s.host ∧ t.config = s.config

/-- The instruction is a host command (00_scope.md R2). -/
def isHostCommand (i : Instr) : Bool :=
  match encode i with
  | .command _ => true
  | .item _ _ => false

/-- A list of instructions executed one after the other. -/
def execAll : List Instr → State → Out
  | [], s => .next s
  | i :: is, s =>
    match exec i s with
    | .next t => execAll is t
    | .fault f => .fault f
    | .refused r => .refused r

/-! ## Which commands write which state (10_state.md R22 to R44) -/

/-- The commands that may write CRC (10_state.md R22). -/
def writesCrc : Instr → Bool
  | .crcInit | .crcSet _ | .crcBit _ | .crcUpdate _ | .crcCompute _ _ | .wrReg _ _ => true
  | _ => false

/-- The commands that may write PRE and CFG (10_state.md R23, R25). -/
def writesHeader : Instr → Bool
  | .decode _ | .release | .wrReg _ _ => true
  | _ => false

/-- The commands that may write PRE.csum_valid (10_state.md R24) or W (R38, 44_walker.md R275). -/
def writesWalker : Instr → Bool
  | .decode _ | .release => true
  | _ => false

/-- The commands that may write CATS (10_state.md R27). -/
def writesCats : Instr → Bool
  | .decode _ | .release | .append _ _ | .removeLast | .sort | .strAdd _ _ _ => true
  | _ => false

/-- The commands that may write OUT, OUT_LEN and OUT_VALID (10_state.md R36). -/
def writesOut : Instr → Bool
  | .decode _ | .encode _ _ | .release => true
  | _ => false

/-- The commands that may write ERR (10_state.md R44). -/
def writesErr : Instr → Bool
  | .decode _ | .encode _ _ => true
  | _ => false

/-- The command that may write DIAG (10_state.md R41). -/
def writesDiag : Instr → Bool
  | .decode _ => true
  | _ => false

/-- The command that may write E (10_state.md R42, R43). -/
def writesWriter : Instr → Bool
  | .encode _ _ => true
  | _ => false

/-! ## The effect of one section (44_walker.md R270, R271) -/

/-- The descriptor registers and the cursor after the section `(t, p)` was executed: `W.pos <- q + 4 + sb`
(44_walker.md R264, R271). -/
def walkedPast (t : U16) (p : Bytes) (w : Walker) : Walker :=
  { pos := w.pos + BitVec.ofNat 32 (4 + p.length), phase := w.phase, secType := t,
    secWords := BitVec.ofNat 16 (p.length / 2), limit := w.limit }

/-- The state after a section was decoded to `v` and appended (44_walker.md R270). -/
def afterStored (t : U16) (p : Bytes) (v : Payload) (s : State) : State :=
  { s with cats := s.cats ++ [{ type := t, sizeBytes := p.length, payload := v }], w := walkedPast t p s.w }

/-- The state after a section was skipped with the diagnostic `c` (44_walker.md R270). -/
def afterSkipped (c : Byte) (t : U16) (p : Bytes) (s : State) : State :=
  { s with diags := s.diags ++ [{ code := c, secType := t, pos := s.w.pos }], w := walkedPast t p s.w }

/-- The descriptor registers show the section `(t, w)` before it is executed (44_walker.md R264). -/
def atSection (t w : U16) (s : State) : State := { s with w := { s.w with secType := t, secWords := w } }

/-! ## The state invariant (10_state.md R49) -/

/-- R49 (c), (d): at most 255 strings of at most 255 bytes, at most 255 PDO entries. -/
def payloadBounded : Payload → Bool
  | .strings strs => decide (strs.length ≤ 255) && strs.all (fun x => decide (x.length ≤ 255))
  | .pdo d => decide (d.entries.length ≤ 255)
  | .datatypes => true
  | .general _ => true
  | .fmmu _ => true
  | .syncM _ => true
  | .dclock _ => true

/-- R49 (a) to (d) of one node. -/
def nodeWf (c : Category) : Bool :=
  c.type == payloadType c.payload && c.sizeBytes % 2 == 0 && decide (c.sizeBytes ≤ Config.maxPayload)
    && payloadBounded c.payload

/-- A list of `n` elements respects a capacity (00_scope.md R6). -/
def withinCap (cap : Option Nat) (n : Nat) : Bool :=
  match cap with
  | none => true
  | some c => decide (n ≤ c)

/-- R49 (a) to (d) and (f) for CATS. -/
def catsInv (s : State) : Bool := s.cats.all nodeWf && withinCap s.config.catCap s.cats.length

/-- R49 (f) for DIAG, and only diagnostic codes in it (60_exceptions.md R321). -/
def diagInv (s : State) : Bool :=
  s.diags.all (fun d => diagCodes.contains d.code) && withinCap s.config.diagCap s.diags.length

/-- R49 (g), with 20_memory.md R62: OUT has values exactly in `[0, OUT_LEN)` while OUT_VALID = 1, ending with
FF FF, and none while OUT_VALID = 0. -/
def outInv (s : State) : Bool :=
  if s.outValid then
    decide (130 ≤ s.outLen.toNat) && (s.out.map (·.1) == List.range s.outLen.toNat)
      && (outByte s.out (s.outLen.toNat - 2) == some 0xFF) && (outByte s.out (s.outLen.toNat - 1) == some 0xFF)
  else s.out == []

/-- Where the cursor stands in each phase (10_state.md R38, R49 (h); 44_walker.md R276). -/
def walkInv (s : State) : Bool :=
  match s.w.phase with
  | .idle => true
  | .failed => true
  | .terminal => decide (130 ≤ s.w.pos.toNat)
  | .preamble => s.w.pos == 0 && decide (s.w.limit.toNat ≤ s.config.inCap.toNat)
  | .stdConfig => s.w.pos == 16 && decide (16 ≤ s.w.limit.toNat) && decide (s.w.limit.toNat ≤ s.config.inCap.toNat)
  | .inSection =>
    decide (128 ≤ s.w.pos.toNat) && decide (s.w.pos.toNat ≤ s.w.limit.toNat)
      && decide (s.w.limit.toNat ≤ s.config.inCap.toNat)

/-- Both spaces are in canonical form, STATUS is an assigned code (60_exceptions.md R321), and the response shows it
(30_encoding.md R100). -/
def busInv (s : State) : Bool :=
  Memory.wf inUnlisted s.input && Memory.wf outUnlisted s.out && statusCodes.contains s.status && s.rsp.status == s.status

/-- The state invariant (10_state.md R49). -/
def stateInv (s : State) : Bool := catsInv s && diagInv s && outInv s && walkInv s && busInv s

/-! ## Images -/

/-- The section types with a codec: known and implemented (44_walker.md R270). -/
def codecTypes : List U16 := [10#16, 30#16, 40#16, 41#16, 50#16, 51#16, 60#16]

/-- A section the walker accepts: its size fits a descriptor, it is not the terminator, and its codec, where the type
has one, decodes it (44_walker.md R264, R270). -/
def sectionAccepted (t : U16) (p : Bytes) : Bool :=
  payloadWf p && !(t == Config.endType) && (!(codecTypes.contains t) || (decodePayload t p).isSome)

/-- The node a section leaves in CATS, if any (44_walker.md R270). -/
def sectionNodes (t : U16) (p : Bytes) : List Category :=
  match decodePayload t p with
  | some v => [{ type := t, sizeBytes := p.length, payload := v }]
  | none => []

/-- The diagnostic a section at offset `q` leaves in DIAG, if any (44_walker.md R270). -/
def sectionDiags (t : U16) (q : Nat) : List ErrRec :=
  if codecTypes.contains t then []
  else [{ code := if t = 20#16 then 0x12 else 0x11, secType := t, pos := BitVec.ofNat 32 q }]

/-- The diagnostic the preamble `p` leaves in DIAG, if any (41_header_codecs.md R141). -/
def headerDiags (p : Bytes) : List ErrRec :=
  if crcFold Config.crcSeed p = 0 then [] else [{ code := 0x10, secType := 0, pos := 0 }]

/-- The nodes of a list of sections, in image order (44_walker.md R273). -/
def imageNodes (secs : List (U16 × Bytes)) : List Category := secs.flatMap (fun x => sectionNodes x.1 x.2)

/-- The diagnostics of a list of sections that starts at offset `q`, in image order (44_walker.md R273). -/
def imageDiags : Nat → List (U16 × Bytes) → List ErrRec
  | _, [] => []
  | q, x :: xs => sectionDiags x.1 q ++ imageDiags (q + 4 + x.2.length) xs

/-- The bytes of a list of sections and the terminator (30_encoding.md R80). -/
def sectionsImage (secs : List (U16 × Bytes)) : Bytes := secs.flatMap (fun x => sectionBytes x.1 x.2) ++ [0xFF, 0xFF]

/-- What ENCODE writes for a node: nothing when its type is skipped (45_writer.md R296, R301). `skip` tells the types
that the options suppress; the statements spell it out. -/
def nodeImage (skip : U16 → Bool) (c : Category) : Bytes :=
  if skip c.type then [] else sectionBytes c.type (encodePayload c.payload)

/-- ENCODE can write the node: skipped, or no Datatypes and no payload too long (45_writer.md R299, R300). -/
def nodeEncodable (skip : U16 → Bool) (c : Category) : Bool :=
  skip c.type || (!(c.type == 20) && decide ((encodePayload c.payload).length ≤ Config.maxPayload))

/-- The image ENCODE writes: preamble, standard config, the nodes in list order, the terminator (45_writer.md R290). -/
def encodedImage (skip : U16 → Bool) (s : State) : Bytes :=
  encodePreamble s.pre ++ (encodeStdConfig s.cfg ++ (s.cats.flatMap (nodeImage skip) ++ [0xFF, 0xFF]))

/-- The stored checksum agrees with the five words (41_header_codecs.md R145, R147). -/
def checksumConsistent (r : Preamble) : Bool := crcFold Config.crcSeed (encodePreamble r) == 0

/-- A payload that its codec reproduces byte for byte (43_category_codecs.md R245). -/
def canonicalPayload (t : U16) (p : Bytes) : Bool :=
  match decodePayload t p with
  | some v => encodePayload v == p
  | none => false

/-- The preamble bytes of a well-formed image: valid, reserved bytes and byte 15 zero (45_writer.md R312). -/
def canonicalPreamble (p : Bytes) : Bool :=
  p.length == Config.preBytes && crcFold Config.crcSeed p == 0 && (p.drop 10).take 4 == zeros 4 && p.drop 15 == zeros 1

/-- The standard-config bytes of a well-formed image: both reserved runs zero (45_writer.md R312). -/
def canonicalStdConfig (c : Bytes) : Bool :=
  c.length == Config.cfgBytes && (c.drop 16).take 8 == zeros 8 && (c.drop 42).take 66 == zeros 66

/-- The payload with every SyncManager status byte 0: what ENCODE keeps of it (43_category_codecs.md R226, R245). -/
def clearStatus : Payload → Payload
  | .syncM es => .syncM (es.map (fun e => { e with status := 0 }))
  | .strings strs => .strings strs
  | .datatypes => .datatypes
  | .general g => .general g
  | .fmmu us => .fmmu us
  | .pdo d => .pdo d
  | .dclock d => .dclock d

end Sys2Proof.Machine
end

