-- ==== Sys2Proof/Certificates/Slice0/Obligations.lean ====
section
/-! DEFINITION. The statements about the machine, each a rule of spec/ or a consequence of some. -/

open Sys2Proof Sys2Proof.Machine

/-! ## Reset and step -/

/-- Reset leaves every element at the value of 10_state.md R48 (OUT and OUT_LEN have none), whatever the parameters
of the instance. That `State.reset` is the widest instance is the model's choice (log 2); in it the empty image does not
encode (60_exceptions.md R335). -/
def Obligations.ResetLeavesTheSpecValues : Prop :=
  ∀ c : Config,
    (State.resetWith c).crc = 0xFF ∧ (State.resetWith c).pre =
      { pdiCtrl := 0, pdiConf := 0, syncImpulse := 0, pdiConf2 := 0, stationAlias := 0, rsvd0 := 0, rsvd1 := 0,
        rsvd2 := 0, rsvd3 := 0, checksum := 0, csumValid := .unset } ∧
    (State.resetWith c).cfg =
      { vendorId := 0, productId := 0, revisionId := 0, serial := 0, bsRxAddr := 0, bsRxSize := 0, bsTxAddr := 0,
        bsTxSize := 0, stdRxAddr := 0, stdRxSize := 0, stdTxAddr := 0, stdTxSize := 0, mbxProto := 0, eepromCode := 0,
        version := 0 } ∧
    (State.resetWith c).cats = [] ∧ (State.resetWith c).outValid = false ∧ (State.resetWith c).status = 0 ∧
    (State.resetWith c).err = { code := 0, secType := 0, pos := 0 } ∧ (State.resetWith c).diags = [] ∧
    (State.resetWith c).w.phase = .idle ∧ (State.resetWith c).w.pos = 0 ∧ (State.resetWith c).w.secType = 0 ∧
    (State.resetWith c).w.secWords = 0 ∧ (State.resetWith c).e = { wpos := 0, idx := 0, opts := 0 } ∧
    State.reset = State.resetWith Config.widest ∧
    ∃ t, exec (.encode 128 0) State.reset = .next t ∧ t.err = { code := 0x21, secType := 0, pos := 14 }

/-- `rst` between commands leaves the reset values and does not change IN (70_reset_and_hazards.md R360). That the host's
later events stay pending is the model's choice (log 18). -/
def Obligations.ResetEventRestoresResetValues : Prop :=
  ∀ (s : State) (rest : List HostEvent), accepting s = true → s.host = .rst :: rest →
    ∃ t, step s = .next t ∧ t.crc = 0xFF ∧ t.pre = State.reset.pre ∧ t.cfg = State.reset.cfg ∧ t.cats = [] ∧
      t.outValid = false ∧ t.status = 0 ∧ t.err = { code := 0, secType := 0, pos := 0 } ∧ t.diags = [] ∧
      t.w.phase = .idle ∧ t.w.pos = 0 ∧ t.w.secType = 0 ∧ t.w.secWords = 0 ∧
      t.e = { wpos := 0, idx := 0, opts := 0 } ∧ t.input = s.input ∧ t.host = rest

/-- A step runs the decoded instruction: the command at the head of the host's events, taken off them; the item at the
cursor of a walk in progress, from the bytes of IN that are left there. The list of events (log 7) and that the state
stays when nothing is pending (log 9) are the model's choices. -/
def Obligations.StepRunsTheDecodedInstruction : Prop :=
  (∀ (s : State) (c : Command) (rest : List HostEvent) (i : Instr), accepting s = true → s.host = .command c :: rest →
    decode (.command c) = .ok i → step s = exec i { s with host := rest }) ∧
  (∀ (s : State) (i : Instr), s.w.phase = .preamble →
    decode (.item .preamble (memRead s 0 s.w.limit.toNat)) = .ok i → step s = exec i s) ∧
  (∀ (s : State) (i : Instr), s.w.phase = .stdConfig →
    decode (.item .stdConfig (memRead s 16 (s.w.limit.toNat - 16))) = .ok i → step s = exec i s) ∧
  (∀ (s : State) (i : Instr), s.w.phase = .inSection →
    decode (.item .descriptor (memRead s s.w.pos.toNat (s.w.limit.toNat - s.w.pos.toNat))) = .ok i → step s = exec i s) ∧
  (∀ s : State, accepting s = true → s.host = [] → step s = .next s)

/-- A command code outside the table is refused with BadCommand (60_exceptions.md R338). -/
def Obligations.UnknownCommandCodeIsRefused : Prop :=
  ∀ (s : State) (c : Command) (rest : List HostEvent), accepting s = true → s.host = .command c :: rest →
    c.code.toNat ∉ [0x01, 0x02, 0x03, 0x04, 0x05, 0x10, 0x11, 0x12, 0x20, 0x21, 0x22, 0x23, 0x24, 0x25, 0x28, 0x29,
      0x2A, 0x30, 0x31, 0x32] →
    step s = .next { s with host := rest, status := 0x30, rsp := { status := 0x30, val0 := 0, val1 := 0, result := .none } }

/-- The host's write of IN changes the bytes it names and nothing else; the machine stops only on a write past the
32-bit space (the model's choice, log 8; 20_memory.md R60, R61). -/
def Obligations.OnlyAnOutsideHostWriteStops : Prop :=
  (∀ (s : State) (a : U32) (b : Bytes) (rest : List HostEvent), accepting s = true → s.host = .writeIn a b :: rest →
    a.toNat + b.length ≤ 2 ^ 32 →
    ∃ t, step s = .next t ∧ t = { s with host := rest, input := t.input } ∧
      ∀ x, inByte t.input x =
        if a.toNat ≤ x ∧ x < a.toNat + b.length then b.getD (x - a.toNat) 0 else inByte s.input x) ∧
  (∀ (s : State) (f : Fault), step s = .fault f →
    ∃ a b rest, s.host = .writeIn a b :: rest ∧ 2 ^ 32 < a.toNat + b.length) ∧
  (∀ (s : State) (r : Refusal), step s ≠ .refused r)

/-! ## Encodings -/

/-- Decoding the encoding of a well-formed instruction gives it back; behind an item of an image any bytes may
follow. -/
def Obligations.DecodeOfEncodeIsTheInstruction : Prop :=
  ∀ i : Instr, i.wf = true → decode (encode i) = .ok i ∧
    ∀ slot b rest, encode i = .item slot b → decode (.item slot (b ++ rest)) = .ok i

/-- What the decoder reads is well-formed, and its encoding is what was read: the item's bytes stand at the head of
the buffer; a command's code and the arguments its row of 30_encoding.md R100 uses come back, the unused ones as 0. -/
def Obligations.DecodedInstructionsAreWellFormed : Prop :=
  (∀ slot b i, decode (.item slot b) = .ok i → i.wf = true ∧ ∃ x rest, encode i = .item slot x ∧ b = x ++ rest) ∧
  (∀ c i, decode (.command c) = .ok i → i.wf = true ∧ encode i = .command
    { code := c.code,
      arg0 := if c.code.toNat ∈ [0x02, 0x03, 0x04, 0x05, 0x10, 0x11, 0x20, 0x21, 0x24, 0x25, 0x28, 0x29, 0x2A, 0x30,
        0x31, 0x32] then c.arg0 else 0,
      arg1 := if c.code.toNat ∈ [0x05, 0x11, 0x20, 0x24, 0x28, 0x29, 0x2A, 0x31] then c.arg1 else 0,
      arg2 := if c.code.toNat ∈ [0x28, 0x2A] then c.arg2 else 0 })

/-- The whole 16-bit type word selects the row, and the size word alone the payload: each of the eight category types
its instruction, 0xFFFF the terminator, every other word, bit 15 set or not, the unknown section
(30_encoding.md R83, R84, R93, R94, R95). -/
def Obligations.TypeWordSelectsTheRow : Prop :=
  ∀ (t w : U16) (p rest : Bytes), p.length = 2 * w.toNat →
    decode (.item .descriptor (le16 t ++ (le16 w ++ (p ++ rest)))) = .ok (
      if t.toNat = 10 then .strings p else if t.toNat = 20 then .datatypes p else if t.toNat = 30 then .general p
      else if t.toNat = 40 then .fmmu p else if t.toNat = 41 then .syncm p else if t.toNat = 50 then .txpdo p
      else if t.toNat = 51 then .rxpdo p else if t.toNat = 60 then .dclock p else if t.toNat = 65535 then .endMark
      else .unknown t p)

/-- Words written out from the spec's encodings decode to their instructions (30_encoding.md R83, R85, R100). -/
def Obligations.WrittenOutWordsDecode : Prop :=
  decode (.item .descriptor [0x28, 0x00, 0x02, 0x00, 0x01, 0x02, 0x03, 0x00]) = .ok (.fmmu [1, 2, 3, 0]) ∧
  decode (.item .descriptor [0xFF, 0xFF]) = .ok .endMark ∧
  decode (.item .descriptor [0x00, 0x08, 0x01, 0x00, 0xDE, 0xAD]) = .ok (.unknown 0x0800 [0xDE, 0xAD]) ∧
  decode (.item .descriptor [0x0A, 0x80, 0x00, 0x00]) = .ok (.unknown 0x800A []) ∧
  decode (.command { code := 0x04, arg0 := 0x31, arg1 := 0, arg2 := 0 }) = .ok (.crcUpdate 0x31) ∧
  decode (.command { code := 0x24, arg0 := 1, arg1 := 10, arg2 := 7 }) = .ok (.findNeighbor 1 10) ∧
  decode (.command { code := 0x40, arg0 := 0, arg1 := 0, arg2 := 0 }) = .error .badCommand

/-! ## The CRC-8 generator -/

/-- CRC_INIT, code 0x01, loads the seed and answers it (40_crc8.md R125). -/
def Obligations.CrcInitLoadsTheSeed : Prop :=
  (∀ a b c : U32, decode (.command ⟨0x01, a, b, c⟩) = .ok .crcInit) ∧
  ∀ s : State, exec .crcInit s =
    .next { s with crc := 0xFF, status := 0, rsp := { status := 0, val0 := 0xFF, val1 := 0, result := .none } }

/-- CRC_SET, code 0x02, loads its operand; above 0xFF it is refused; WR_REG of register 0x00 loads the same value
(40_crc8.md R126). -/
def Obligations.CrcSetLoadsItsOperand : Prop :=
  (∀ a b c : U32, decode (.command ⟨0x02, a, b, c⟩) = .ok (.crcSet a)) ∧
  ∀ (v : U32) (s : State),
    (v.toNat ≤ 0xFF → exec (.crcSet v) s =
        .next { s with crc := v.setWidth 8, status := 0, rsp := { status := 0, val0 := v, val1 := 0, result := .none } } ∧
      ∃ t, exec (.wrReg 0x00 v) s = .next t ∧ t.crc = v.setWidth 8) ∧
    (0xFF < v.toNat → exec (.crcSet v) s = .next (afterRefusal 0x31 s))

/-- CRC_BIT, code 0x03, is the circuit of 40_crc8.md R123: `n0 = fb`, `n1 = s0 ^ fb`, `n2 = s1 ^ fb`, the others shift;
above 1 its operand is refused; eight of them with the bits of a byte, bit 7 first, leave what one CRC_UPDATE of the
byte leaves (R127). -/
def Obligations.CrcBitFollowsTheGates : Prop :=
  (∀ a b c : U32, decode (.command ⟨0x03, a, b, c⟩) = .ok (.crcBit a)) ∧
  (∀ (d : U32) (s : State),
    (d.toNat ≤ 1 → ∃ c : Byte, exec (.crcBit d) s =
        .next { s with crc := c, status := 0, rsp := { status := 0, val0 := c.setWidth 32, val1 := 0, result := .none } } ∧
      c.getLsbD 0 = (s.crc.getLsbD 7 ^^ d.getLsbD 0) ∧
      c.getLsbD 1 = (s.crc.getLsbD 0 ^^ (s.crc.getLsbD 7 ^^ d.getLsbD 0)) ∧
      c.getLsbD 2 = (s.crc.getLsbD 1 ^^ (s.crc.getLsbD 7 ^^ d.getLsbD 0)) ∧
      c.getLsbD 3 = s.crc.getLsbD 2 ∧ c.getLsbD 4 = s.crc.getLsbD 3 ∧ c.getLsbD 5 = s.crc.getLsbD 4 ∧
      c.getLsbD 6 = s.crc.getLsbD 5 ∧ c.getLsbD 7 = s.crc.getLsbD 6) ∧
    (1 < d.toNat → exec (.crcBit d) s = .next (afterRefusal 0x31 s))) ∧
  ∀ (b : Byte) (s : State),
    execAll ((List.range 8).map (fun k => .crcBit (if b.getLsbD (7 - k) then 1 else 0))) s = exec (.crcUpdate (b.setWidth 32)) s

/-- CRC_UPDATE, code 0x04, sets CRC to `update(CRC, b)`: the byte is XORed in, then eight times the register shifts left
and takes 0x07 when the bit shifted out was set; the result is 0 exactly when `b` is the old CRC; above 0xFF the operand
is refused (40_crc8.md R121, R128). -/
def Obligations.CrcUpdateFoldsOneByte : Prop :=
  (∀ a b c : U32, decode (.command ⟨0x04, a, b, c⟩) = .ok (.crcUpdate a)) ∧
  ∀ (b : U32) (s : State),
    (b.toNat ≤ 0xFF → ∃ c : Byte, exec (.crcUpdate b) s =
        .next { s with crc := c, status := 0, rsp := { status := 0, val0 := c.setWidth 32, val1 := 0, result := .none } } ∧
      c = (List.range 8).foldl (fun x _ => if x.getLsbD 7 then (x <<< 1) ^^^ 0x07#8 else x <<< 1) (s.crc ^^^ b.setWidth 8) ∧
      (c = 0 ↔ b.setWidth 8 = s.crc)) ∧
    (0xFF < b.toNat → exec (.crcUpdate b) s = .next (afterRefusal 0x31 s))

/-- CRC_COMPUTE, code 0x05, folds the bytes `IN[a..a+len)` from the seed, whatever CRC held; a range beyond IN_CAP is refused
(40_crc8.md R129). -/
def Obligations.CrcComputeFoldsTheRange : Prop :=
  (∀ a b c : U32, decode (.command ⟨0x05, a, b, c⟩) = .ok (.crcCompute a b)) ∧
  ∀ (a len : U32) (s : State),
    (a.toNat + len.toNat ≤ s.config.inCap.toNat → ∃ c : Byte,
      c = ((List.range len.toNat).map (fun k => inByte s.input (a.toNat + k))).foldl crcUpdate 0xFF ∧
      exec (.crcCompute a len) s =
        .next { s with crc := c, status := 0, rsp := { status := 0, val0 := c.setWidth 32, val1 := 0, result := .none } }) ∧
    (s.config.inCap.toNat < a.toNat + len.toNat → exec (.crcCompute a len) s = .next (afterRefusal 0x31 s))

/-- The residue laws (40_crc8.md R124): `update(s, b)` depends on `s ^ b` alone and is a bijection of it; appending the
checksum, or the checksum and a zero byte, folds to 0; and two appended bytes fold to 0 in no other case. -/
def Obligations.CrcResidueLaws : Prop :=
  (∀ s b : Byte, crcUpdate s b = crcUpdate 0 (s ^^^ b)) ∧
  (∀ x y : Byte, crcUpdate 0 x = crcUpdate 0 y → x = y) ∧
  (∀ m : Bytes, crcFold 0xFF (m ++ [crcCompute m]) = 0 ∧ crcFold 0xFF (m ++ [crcCompute m, 0]) = 0) ∧
  (∀ (m : Bytes) (x y : Byte), crcFold 0xFF (m ++ [x, y]) = 0 ↔ y = crcUpdate (crcCompute m) x)

/-! ## Header codecs and registers -/

/-- The PREAMBLE step (41_header_codecs.md R141): the registers from their offsets, the flag from the residue, one
diagnostic when it is not 0 and DIAG has room; fewer than 16 bytes raise MalformedHeader, 0x01. -/
def Obligations.PreambleLoadsTheRegisters : Prop :=
  (∀ (p : Bytes) (s : State), p.length = 16 →
    crcFold 0xFF p = 0 ∨ s.config.diagCap ≠ some s.diags.length →
    exec (.preamble p) s = .next { s with
      pre := { pdiCtrl := rd16 p 0, pdiConf := rd16 p 2, syncImpulse := rd16 p 4, pdiConf2 := rd16 p 6,
               stationAlias := rd16 p 8, rsvd0 := rd8 p 10, rsvd1 := rd8 p 11, rsvd2 := rd8 p 12, rsvd3 := rd8 p 13,
               checksum := rd8 p 14, csumValid := if crcFold 0xFF p = 0 then .valid else .invalid },
      diags := if crcFold 0xFF p = 0 then s.diags else s.diags ++ [{ code := 0x10, secType := 0, pos := 0 }],
      w := { s.w with pos := 16, phase := .stdConfig } }) ∧
  (∀ s : State, s.w.phase = .preamble → s.w.limit.toNat < 16 →
    step s = .next (afterDecodeError 0x01 0 0 s)) ∧
  (∀ s : State, s.w.phase = .preamble → 16 ≤ s.w.limit.toNat →
    step s = exec (.preamble ((List.range 16).map (fun k => inByte s.input k))) s)

/-- A preamble is valid exactly when byte 15 is `update(compute(P[0..14)), P[14])` (41_header_codecs.md R142). -/
def Obligations.PreambleIsSelfCertifying : Prop :=
  ∀ p : Bytes, p.length = 16 →
    (checksumFlag p = .valid ↔ rd8 p 15 = crcUpdate (crcCompute (p.take 14)) (rd8 p 14)) ∧
    (rd8 p 15 = 0 → (checksumFlag p = .valid ↔ rd8 p 14 = crcCompute (p.take 14)))

/-- The STDCONFIG step (41_header_codecs.md R151): the registers from their offsets; the two reserved runs are ignored;
fewer than 112 bytes raise TruncatedBuffer, 0x02. -/
def Obligations.StdConfigLoadsTheRegisters : Prop :=
  (∀ (c : Bytes) (s : State), c.length = 112 →
    exec (.stdconfig c) s = .next { s with
      cfg := { vendorId := rd32 c 0, productId := rd32 c 4, revisionId := rd32 c 8, serial := rd32 c 12,
               bsRxAddr := rd16 c 24, bsRxSize := rd16 c 26, bsTxAddr := rd16 c 28, bsTxSize := rd16 c 30,
               stdRxAddr := rd16 c 32, stdRxSize := rd16 c 34, stdTxAddr := rd16 c 36, stdTxSize := rd16 c 38,
               mbxProto := rd16 c 40, eepromCode := rd16 c 108, version := rd16 c 110 },
      w := { s.w with pos := 128, phase := .inSection } }) ∧
  (∀ s : State, s.w.phase = .stdConfig → s.w.limit.toNat < 128 →
    step s = .next (afterDecodeError 0x02 0 16 s)) ∧
  (∀ s : State, s.w.phase = .stdConfig → 128 ≤ s.w.limit.toNat →
    step s = exec (.stdconfig ((List.range 112).map (fun k => inByte s.input (16 + k)))) s)

/-- The EEPROM size scaling and its partial inverse (41_header_codecs.md R156). -/
def Obligations.EepromSizeScaling : Prop :=
  (∀ c : U16, eepromBytes c = c.toNat * 128 + 128 ∧ 128 ≤ eepromBytes c ∧ eepromBytes c ≤ 0x800000 ∧
    eepromBytes c % 128 = 0 ∧ eepromCode (eepromBytes c) = some c.toNat) ∧
  (∀ b : Nat, b < 0x80 → eepromCode b = none) ∧
  (∀ b : Nat, 0x80 ≤ b → eepromCode b = some ((b - 0x80) / 128) ∧ (b - 0x80) / 128 * 128 + 128 = b - b % 128)

/-- RD_REG, code 0x30, answers every register of the map with the value of its element; OUT_LEN while OUT_VALID = 0 and every
unassigned number are refused (10_state.md R47, 41_header_codecs.md R160). -/
def Obligations.RdRegAnswersTheRegisterMap : Prop :=
  (∀ a b c : U32, decode (.command ⟨0x30, a, b, c⟩) = .ok (.rdReg a)) ∧
  ∀ s : State,
    (∀ x ∈ ([(0x00#32, s.crc.setWidth 32), (0x01#32, s.status.setWidth 32), (0x02#32, s.err.code.setWidth 32),
        (0x03#32, s.err.secType.setWidth 32), (0x04#32, s.err.pos), (0x05#32, BitVec.ofNat 32 s.diags.length),
        (0x06#32, (match s.w.phase with
          | .idle => 0#32 | .preamble => 1#32 | .stdConfig => 2#32 | .inSection => 3#32 | .terminal => 4#32
          | .failed => 5#32)),
        (0x07#32, s.w.pos), (0x08#32, BitVec.ofNat 32 s.cats.length), (0x09#32, (if s.outValid then 1#32 else 0#32)),
        (0x0B#32, (match s.pre.csumValid with | .unset => 0#32 | .invalid => 1#32 | .valid => 3#32)),
        (0x0C#32, BitVec.ofNat 32 (s.cfg.eepromCode.toNat * 128 + 128)), (0x0D#32, s.e.wpos),
        (0x10#32, s.pre.pdiCtrl.setWidth 32), (0x11#32, s.pre.pdiConf.setWidth 32), (0x12#32, s.pre.syncImpulse.setWidth 32),
        (0x13#32, s.pre.pdiConf2.setWidth 32), (0x14#32, s.pre.stationAlias.setWidth 32),
        (0x15#32, s.pre.rsvd3 ++ (s.pre.rsvd2 ++ (s.pre.rsvd1 ++ s.pre.rsvd0))), (0x16#32, s.pre.checksum.setWidth 32),
        (0x20#32, s.cfg.vendorId), (0x21#32, s.cfg.productId), (0x22#32, s.cfg.revisionId), (0x23#32, s.cfg.serial),
        (0x24#32, s.cfg.bsRxAddr.setWidth 32), (0x25#32, s.cfg.bsRxSize.setWidth 32), (0x26#32, s.cfg.bsTxAddr.setWidth 32),
        (0x27#32, s.cfg.bsTxSize.setWidth 32), (0x28#32, s.cfg.stdRxAddr.setWidth 32), (0x29#32, s.cfg.stdRxSize.setWidth 32),
        (0x2A#32, s.cfg.stdTxAddr.setWidth 32), (0x2B#32, s.cfg.stdTxSize.setWidth 32), (0x2C#32, s.cfg.mbxProto.setWidth 32),
        (0x2D#32, s.cfg.eepromCode.setWidth 32), (0x2E#32, s.cfg.version.setWidth 32)] : List (U32 × U32)),
      exec (.rdReg x.1) s = .next (finish x.2 0 .none s)) ∧
    (s.outValid = true → exec (.rdReg 0x0A) s = .next (finish s.outLen 0 .none s)) ∧
    (s.outValid = false → exec (.rdReg 0x0A) s = .next (afterRefusal 0x31 s)) ∧
    (∀ r : U32, 0x0E ≤ r.toNat ∧ r.toNat ≤ 0x0F ∨ 0x17 ≤ r.toNat ∧ r.toNat ≤ 0x1F ∨ 0x2F ≤ r.toNat →
      exec (.rdReg r) s = .next (afterRefusal 0x31 s))

/-- WR_REG, code 0x31, writes each of the 23 RW registers with every value of its width: RD_REG then answers that value,
and what RD_REG answered for every other number it still answers (STATUS apart, and EEPROM_BYTES after EEPROM_CODE);
`PRE.csum_valid` and everything but CRC, PRE, CFG, STATUS and the response stay. A read-only or unassigned number and a
value too wide are refused (41_header_codecs.md R161). -/
def Obligations.WrRegWritesOneRegister : Prop :=
  (∀ a b c : U32, decode (.command ⟨0x31, a, b, c⟩) = .ok (.wrReg a b)) ∧
  ∀ (rw : List (U32 × Nat)), rw = [(0x00, 8), (0x10, 16), (0x11, 16), (0x12, 16), (0x13, 16), (0x14, 16), (0x15, 32),
      (0x16, 8), (0x20, 32), (0x21, 32), (0x22, 32), (0x23, 32), (0x24, 16), (0x25, 16), (0x26, 16), (0x27, 16),
      (0x28, 16), (0x29, 16), (0x2A, 16), (0x2B, 16), (0x2C, 16), (0x2D, 16), (0x2E, 16)] →
    ∀ (v : U32) (s : State),
      (∀ x ∈ rw, v.toNat < 2 ^ x.2 → ∃ t, exec (.wrReg x.1 v) s = .next t ∧
        exec (.rdReg x.1) t = .next (finish v 0 .none t) ∧
        (∀ r u : U32, r ≠ x.1 → r ≠ 0x01 → ¬ (x.1 = 0x2D ∧ r = 0x0C) →
          exec (.rdReg r) s = .next (finish u 0 .none s) → exec (.rdReg r) t = .next (finish u 0 .none t)) ∧
        t.pre.csumValid = s.pre.csumValid ∧
        t = { s with crc := t.crc, pre := t.pre, cfg := t.cfg, status := 0,
                     rsp := { status := 0, val0 := 0, val1 := 0, result := .none } }) ∧
      (∀ x ∈ rw, 2 ^ x.2 ≤ v.toNat → exec (.wrReg x.1 v) s = .next (afterRefusal 0x31 s)) ∧
      (∀ r : U32, r ∉ rw.map (·.1) → exec (.wrReg r v) s = .next (afterRefusal 0x31 s))

/-! ## The per-category codecs -/

/-- `decode_10` reads exactly the count, then that many length-prefixed strings, and ignores what follows; anything
else is malformed (43_category_codecs.md R200). -/
def Obligations.StringsDecodeReadsCountedStrings : Prop :=
  ∀ (p : Bytes) (v : Payload),
    decodeStrings p = some v ↔
      ∃ strs surplus, v = .strings strs ∧ strs.length ≤ 255 ∧ (∀ x ∈ strs, x.length ≤ 255) ∧
        p = BitVec.ofNat 8 strs.length :: (strs.flatMap (fun x => BitVec.ofNat 8 x.length :: x) ++ surplus)

/-- `decode_40` keeps codes 1, 2, 3 in order, drops 0x00 and 0xFF, and is malformed on any other code
(43_category_codecs.md R220). -/
def Obligations.FmmuDecodeDropsUnused : Prop :=
  ∀ p : Bytes,
    ((∀ c ∈ p, c ∈ ([0x00, 0x01, 0x02, 0x03, 0xFF] : Bytes)) →
      decodeFmmu p = some (.fmmu (p.filterMap (fun c =>
        if c = 1#8 then some .outputs else if c = 2#8 then some .inputs else if c = 3#8 then some .smStatus else none)))) ∧
    ((∃ c ∈ p, c ∉ ([0x00, 0x01, 0x02, 0x03, 0xFF] : Bytes)) → decodeFmmu p = none)

/-- `decode_41` reads one record at every multiple of 8, the type by its code (10_state.md R32); a partial record or a
type code above 4 is malformed (43_category_codecs.md R225). -/
def Obligations.SyncMDecodeReadsEveryRecord : Prop :=
  ∀ p : Bytes,
    (p.length % 8 = 0 → (∀ j < p.length / 8, (rd8 p (8 * j + 7)).toNat ≤ 4) →
      ∃ es : List SyncEntry, decodeSyncM p = some (.syncM es) ∧ es.length = p.length / 8 ∧
        ∀ j (h : j < es.length), es[j].physAddr = rd16 p (8 * j) ∧ es[j].length = rd16 p (8 * j + 2) ∧
          es[j].control = rd8 p (8 * j + 4) ∧ es[j].status = rd8 p (8 * j + 5) ∧ es[j].enable = rd8 p (8 * j + 6) ∧
          (match es[j].type with
            | .unused => 0 | .mboxOut => 1 | .mboxIn => 2 | .procOut => 3 | .procIn => 4) = (rd8 p (8 * j + 7)).toNat) ∧
    (p.length % 8 ≠ 0 → decodeSyncM p = none) ∧
    (∀ j < p.length / 8, 4 < (rd8 p (8 * j + 7)).toNat → decodeSyncM p = none)

/-- `decode_pdo` produces exactly `entry-count` entries, from the count byte and not from the section size; a shorter
payload is malformed (43_category_codecs.md R230). -/
def Obligations.PdoDecodeReadsTheEntryCount : Prop :=
  ∀ (dir : PdoDir) (p : Bytes),
    (8 ≤ p.length → 8 + 8 * (rd8 p 2).toNat ≤ p.length →
      ∃ d : Pdo, decodePdo dir p = some (.pdo d) ∧ d.dir = dir ∧ d.index = rd16 p 0 ∧ d.sm = rd8 p 3 ∧
        d.dcSync = rd8 p 4 ∧ d.nameIdx = rd8 p 5 ∧ d.flags = rd16 p 6 ∧ d.entries.length = (rd8 p 2).toNat ∧
        ∀ k (h : k < d.entries.length), d.entries[k].index = rd16 p (8 + 8 * k) ∧
          d.entries[k].subindex = rd8 p (8 + 8 * k + 2) ∧ d.entries[k].strIdx = rd8 p (8 + 8 * k + 3) ∧
          d.entries[k].dataType = rd8 p (8 + 8 * k + 4) ∧ d.entries[k].bitLen = rd8 p (8 + 8 * k + 5) ∧
          d.entries[k].flags = rd16 p (8 + 8 * k + 6)) ∧
    (p.length < 8 ∨ p.length < 8 + 8 * (rd8 p 2).toNat → decodePdo dir p = none)

/-- `decode_30` reads each field at its offset, with the current as a two's-complement number; fewer than 32 bytes are
malformed (43_category_codecs.md R210). -/
def Obligations.GeneralDecodeReadsTheLayout : Prop :=
  ∀ p : Bytes,
    (32 ≤ p.length → ∃ g : General, decodeGeneral p = some (.general g) ∧
      g.groupIdx = rd8 p 0 ∧ g.imageIdx = rd8 p 1 ∧ g.orderIdx = rd8 p 2 ∧ g.nameIdx = rd8 p 3 ∧
      g.coeSdo = (rd8 p 5).getLsbD 0 ∧ g.coeSdoInfo = (rd8 p 5).getLsbD 1 ∧ g.coePdoAssign = (rd8 p 5).getLsbD 2 ∧
      g.coePdoConfig = (rd8 p 5).getLsbD 3 ∧ g.coeUploadAtStart = (rd8 p 5).getLsbD 4 ∧
      g.coeSdoComplete = (rd8 p 5).getLsbD 5 ∧ g.foeEnabled = (rd8 p 6).getLsbD 0 ∧ g.eoeEnabled = (rd8 p 7).getLsbD 0 ∧
      g.safeop = (rd8 p 11).getLsbD 0 ∧ g.notlrw = (rd8 p 11).getLsbD 1 ∧ g.mboxDll = (rd8 p 11).getLsbD 2 ∧
      g.identAlStatus = (rd8 p 11).getLsbD 3 ∧ g.identPhysMem = (rd8 p 11).getLsbD 4 ∧
      g.currentEbus.toInt = (if (rd8 p 12).toNat + 256 * (rd8 p 13).toNat < 0x8000
        then ((rd8 p 12).toNat + 256 * (rd8 p 13).toNat : Int)
        else ((rd8 p 12).toNat + 256 * (rd8 p 13).toNat : Int) - 0x10000) ∧
      g.port0.toNat = (rd8 p 16).toNat % 16 ∧ g.port1.toNat = (rd8 p 16).toNat / 16 ∧
      g.port2.toNat = (rd8 p 17).toNat % 16 ∧ g.port3.toNat = (rd8 p 17).toNat / 16 ∧
      g.physAddr.toNat = (rd8 p 18).toNat + 256 * (rd8 p 19).toNat) ∧
    (p.length < 32 → decodeGeneral p = none)

/-- `decode_60` reads each field at its offset; fewer than 86 bytes are malformed (43_category_codecs.md R240). -/
def Obligations.DClockDecodeReadsTheLayout : Prop :=
  ∀ p : Bytes,
    (86 ≤ p.length → ∃ d : DClock, decodeDClock p = some (.dclock d) ∧
      d.cyclicOpEnabled = (rd8 p 1).getLsbD 0 ∧ d.sync0Active = (rd8 p 1).getLsbD 1 ∧ d.sync1Active = (rd8 p 1).getLsbD 2 ∧
      d.syncPulse.toNat = (rd8 p 2).toNat + 256 * (rd8 p 3).toNat ∧
      d.int0Status = (rd8 p 14).getLsbD 0 ∧ d.int1Status = (rd8 p 15).getLsbD 0 ∧ d.cyclicOpStart = rd32 p 16 ∧
      d.sync0Cycle = rd32 p 32 ∧ d.sync1Cycle = rd32 p 36 ∧
      d.latch0PosEdge = (rd8 p 40).getLsbD 0 ∧ d.latch0NegEdge = (rd8 p 40).getLsbD 1 ∧
      d.latch1PosEdge = (rd8 p 41).getLsbD 0 ∧ d.latch1NegEdge = (rd8 p 41).getLsbD 1 ∧
      d.latch0PosEvent = (rd8 p 42).getLsbD 0 ∧ d.latch0NegEvent = (rd8 p 42).getLsbD 1 ∧
      d.latch1PosEvent = (rd8 p 43).getLsbD 0 ∧ d.latch1NegEvent = (rd8 p 43).getLsbD 1 ∧
      d.latch0PosVal.toNat = (rd8 p 54).toNat + 256 * (rd8 p 55).toNat + 65536 * (rd8 p 56).toNat + 16777216 * (rd8 p 57).toNat ∧
      d.latch0NegVal = rd32 p 62 ∧ d.latch1PosVal = rd32 p 70 ∧ d.latch1NegVal = rd32 p 78) ∧
    (p.length < 86 → decodeDClock p = none)

/-- Decoding what the encoder makes of a payload within the bounds of 10_state.md R49 gives it back, but for the
SyncManager status bytes, which come back as 0 (43_category_codecs.md R245). -/
def Obligations.CodecRoundTrip : Prop :=
  ∀ v : Payload, payloadBounded v = true → v ≠ .datatypes →
    decodePayload (payloadType v) (encodePayload v) = some (clearStatus v)

/-- How long an encoded payload is, per type; the length is always even (45_writer.md R310, R300). -/
def Obligations.EncodedPayloadLengths : Prop :=
  (∀ strs : List Bytes, (encodePayload (.strings strs)).length =
    (1 + (strs.map (fun x => 1 + x.length)).sum) + (1 + (strs.map (fun x => 1 + x.length)).sum) % 2) ∧
  (∀ g : General, (encodePayload (.general g)).length = 32) ∧
  (∀ us : List FmmuUsage, (encodePayload (.fmmu us)).length = us.length + us.length % 2) ∧
  (∀ es : List SyncEntry, (encodePayload (.syncM es)).length = 8 * es.length) ∧
  (∀ d : Pdo, (encodePayload (.pdo d)).length = 8 + 8 * d.entries.length) ∧
  (∀ d : DClock, (encodePayload (.dclock d)).length = 86) ∧
  (∀ v : Payload, (encodePayload v).length % 2 = 0)

/-- The encoders write every reserved byte and bit as 0 (30_encoding.md R97), the SyncManager status byte too
(43_category_codecs.md R226). -/
def Obligations.ReservedBytesAreWrittenAsZero : Prop :=
  (∀ r : Preamble, ∀ k ∈ [10, 11, 12, 13, 15], rd8 (encodePreamble r) k = 0) ∧
  (∀ (g : StdConfig) (k : Nat), 16 ≤ k ∧ k < 24 ∨ 42 ≤ k ∧ k < 108 → rd8 (encodeStdConfig g) k = 0) ∧
  (∀ g : General, (∀ k ∈ [4, 8, 9, 10, 14, 15, 20, 21, 22, 23, 24, 25, 26, 27, 28, 29, 30, 31], rd8 (encodeGeneral g) k = 0) ∧
    (rd8 (encodeGeneral g) 5).toNat < 64 ∧ (rd8 (encodeGeneral g) 6).toNat < 2 ∧ (rd8 (encodeGeneral g) 7).toNat < 2 ∧
    (rd8 (encodeGeneral g) 11).toNat < 32) ∧
  (∀ d : DClock, (∀ k, k = 0 ∨ 4 ≤ k ∧ k < 14 ∨ 20 ≤ k ∧ k < 32 ∨ 44 ≤ k ∧ k < 54 ∨ 58 ≤ k ∧ k < 62 ∨ 66 ≤ k ∧ k < 70 ∨
      74 ≤ k ∧ k < 78 ∨ 82 ≤ k ∧ k < 86 → rd8 (encodeDClock d) k = 0) ∧
    (rd8 (encodeDClock d) 1).toNat < 8 ∧ (rd8 (encodeDClock d) 14).toNat < 2 ∧ (rd8 (encodeDClock d) 15).toNat < 2 ∧
    (∀ k ∈ [40, 41, 42, 43], (rd8 (encodeDClock d) k).toNat < 4)) ∧
  (∀ (es : List SyncEntry) (j : Nat), j < es.length → rd8 (encodeSyncM es) (8 * j + 5) = 0)

/-! ## Executing the items of an image -/

/-- A section of an implemented type whose codec decodes it is appended, and the cursor moves past it
(44_walker.md R270, R271). -/
def Obligations.DecodedSectionsAreAppended : Prop :=
  ∀ (p : Bytes) (v : Payload) (s : State), s.config.catCap ≠ some s.cats.length →
    (decodeStrings p = some v → exec (.strings p) s = .next (afterStored 10 p v s)) ∧
    (decodeGeneral p = some v → exec (.general p) s = .next (afterStored 30 p v s)) ∧
    (decodeFmmu p = some v → exec (.fmmu p) s = .next (afterStored 40 p v s)) ∧
    (decodeSyncM p = some v → exec (.syncm p) s = .next (afterStored 41 p v s)) ∧
    (decodePdo .tx p = some v → exec (.txpdo p) s = .next (afterStored 50 p v s)) ∧
    (decodePdo .rx p = some v → exec (.rxpdo p) s = .next (afterStored 51 p v s)) ∧
    (decodeDClock p = some v → exec (.dclock p) s = .next (afterStored 60 p v s))

/-- A section of an implemented type whose codec answers Malformed ends DECODE with MalformedCategory at its
descriptor (60_exceptions.md R327). -/
def Obligations.MalformedSectionsAreFatal : Prop :=
  ∀ (p : Bytes) (s : State) (i : Instr) (t : U16),
    (decodeStrings p = none ∧ i = .strings p ∧ t = 10 ∨ decodeGeneral p = none ∧ i = .general p ∧ t = 30 ∨
      decodeFmmu p = none ∧ i = .fmmu p ∧ t = 40 ∨ decodeSyncM p = none ∧ i = .syncm p ∧ t = 41 ∨
      decodePdo .tx p = none ∧ i = .txpdo p ∧ t = 50 ∨ decodePdo .rx p = none ∧ i = .rxpdo p ∧ t = 51 ∨
      decodeDClock p = none ∧ i = .dclock p ∧ t = 60) →
    exec i s = .next (afterDecodeError 0x04 t s.w.pos (atSection t (BitVec.ofNat 16 (p.length / 2)) s))

/-- Datatypes and unknown sections are skipped with their diagnostic: nothing is appended, and the payload bytes do not
matter, only how many there are (43_category_codecs.md R205, R206; 44_walker.md R277). -/
def Obligations.SkippedSectionsOnlyLeaveADiagnostic : Prop :=
  (∀ (p : Bytes) (s : State), s.config.diagCap ≠ some s.diags.length →
    exec (.datatypes p) s = .next (afterSkipped 0x12 20 p s)) ∧
  (∀ (t : U16) (p : Bytes) (s : State), s.config.diagCap ≠ some s.diags.length →
    exec (.unknown t p) s = .next (afterSkipped 0x11 t p s)) ∧
  (∀ (t : U16) (p q : Bytes) (s : State), p.length = q.length →
    exec (.datatypes p) s = exec (.datatypes q) s ∧ exec (.unknown t p) s = exec (.unknown t q) s)

/-- END moves the cursor over the type word and ends DECODE ok with the image length and the number of diagnostics
(44_walker.md R272, R273). -/
def Obligations.EndMarkEndsDecodeOk : Prop :=
  ∀ s : State, exec .endMark s = .next { s with
    w := { s.w with pos := s.w.pos + 2, phase := .terminal }, status := 0,
    rsp := { status := 0, val0 := s.w.pos + 2, val1 := BitVec.ofNat 32 s.diags.length, result := .none } }

/-- What happens at a descriptor boundary, by the bytes that are left (44_walker.md R265): MissingTerminator is 0x03,
TruncatedBuffer 0x02. -/
def Obligations.DescriptorBoundaryCases : Prop :=
  ∀ (s : State) (q r : Nat) (t w : U16), s.w.phase = .inSection → q = s.w.pos.toNat → r = s.w.limit.toNat - q →
    t = u16of (inByte s.input q) (inByte s.input (q + 1)) → w = u16of (inByte s.input (q + 2)) (inByte s.input (q + 3)) →
    (r < 2 → step s = .next (afterDecodeError 0x03 0 s.w.pos s)) ∧
    (2 ≤ r → t = 0xFFFF → step s = exec .endMark s) ∧
    (2 ≤ r → r < 4 → t ≠ 0xFFFF → step s = .next (afterDecodeError 0x02 t s.w.pos s)) ∧
    (4 ≤ r → t ≠ 0xFFFF → r - 4 < 2 * w.toNat →
      step s = .next (afterDecodeError 0x02 t s.w.pos (atSection t w s))) ∧
    (4 ≤ r → t ≠ 0xFFFF → 2 * w.toNat ≤ r - 4 →
      step s = exec (sectionInstr t ((List.range (2 * w.toNat)).map (fun k => inByte s.input (q + 4 + k)))) s)

/-- ResourceExhausted: a full registry, or a full DIAG, ends DECODE; an instance without capacities never raises it
(60_exceptions.md R328). -/
def Obligations.FullCapacitiesEndDecode : Prop :=
  (∀ (p : Bytes) (v : Payload) (s : State), s.config.catCap = some s.cats.length →
    (∀ i t, (decodeStrings p = some v ∧ i = Instr.strings p ∧ t = 10#16 ∨ decodeGeneral p = some v ∧ i = .general p ∧ t = 30 ∨
      decodeFmmu p = some v ∧ i = .fmmu p ∧ t = 40 ∨ decodeSyncM p = some v ∧ i = .syncm p ∧ t = 41 ∨
      decodePdo .tx p = some v ∧ i = .txpdo p ∧ t = 50 ∨ decodePdo .rx p = some v ∧ i = .rxpdo p ∧ t = 51 ∨
      decodeDClock p = some v ∧ i = .dclock p ∧ t = 60) →
      exec i s = .next (afterDecodeError 0x05 t s.w.pos (atSection t (BitVec.ofNat 16 (p.length / 2)) s)))) ∧
  (∀ (p : Bytes) (t : U16) (s : State), s.config.diagCap = some s.diags.length →
    exec (.datatypes p) s =
      .next (afterDecodeError 0x05 20 s.w.pos (atSection 20 (BitVec.ofNat 16 (p.length / 2)) s)) ∧
    exec (.unknown t p) s =
      .next (afterDecodeError 0x05 t s.w.pos (atSection t (BitVec.ofNat 16 (p.length / 2)) s)) ∧
    (crcFold 0xFF p ≠ 0 → exec (.preamble p) s = .next (afterDecodeError 0x05 0 0 s))) ∧
  (∀ (n : U32) (s t : State), s.config.catCap = none → s.config.diagCap = none → exec (.decode n) s = .next t →
    t.status ≠ 0x05)

/-- A fatal error inside DECODE leaves the error record, the empty image, no diagnostics, the cursor at the error,
phase Failed and the response; nothing else of the block changes (44_walker.md R274). A refusal leaves STATUS and the
response alone (60_exceptions.md R332). The codes are the numbers of 60_exceptions.md R321. -/
def Obligations.DecodeErrorLeavesNoPartialImage : Prop :=
  ∀ (c : Code) (k : Byte), (c, k) ∈ ([(.malformedHeader, 0x01), (.truncatedBuffer, 0x02), (.missingTerminator, 0x03),
      (.malformedCategory, 0x04), (.resourceExhausted, 0x05), (.checksumInvalid, 0x10), (.unknownCategory, 0x11),
      (.unimplementedCategory, 0x12), (.checksumInconsistent, 0x21), (.bufferTooSmall, 0x22), (.sectionTooLarge, 0x23),
      (.badCommand, 0x30), (.badOperand, 0x31), (.registryEmpty, 0x32), (.registryFull, 0x33),
      (.wrongCategoryType, 0x35), (.indexOutOfRange, 0x36)] : List (Code × Byte)) →
    ∀ (t : U16) (p : U32) (s : State),
      (raiseDecode c t p s).err = { code := k, secType := t, pos := p } ∧
      (raiseDecode c t p s).pre = State.reset.pre ∧ (raiseDecode c t p s).cfg = State.reset.cfg ∧
      (raiseDecode c t p s).cats = [] ∧ (raiseDecode c t p s).outValid = false ∧ (raiseDecode c t p s).diags = [] ∧
      (raiseDecode c t p s).w = { s.w with pos := p, phase := .failed } ∧ (raiseDecode c t p s).status = k ∧
      (raiseDecode c t p s).rsp = { status := k, val0 := p, val1 := 0, result := .none } ∧
      (raiseDecode c t p s).crc = s.crc ∧ (raiseDecode c t p s).e = s.e ∧ (raiseDecode c t p s).input = s.input ∧
      (raiseDecode c t p s).host = s.host ∧ (raiseDecode c t p s).config = s.config ∧ refuse c s = afterRefusal k s

/-! ## DECODE -/

/-- DECODE always ends: refused above IN_CAP, else ok in Terminal with its response, or by one fatal error in Failed
with the empty image; it leaves CRC, the writer, IN and the pending events alone (44_walker.md R260, R273, R274, R276).
It is code 0x10 (30_encoding.md R100). -/
def Obligations.DecodeEndsOkOrFatal : Prop :=
  (∀ a b c : U32, decode (.command ⟨0x10, a, b, c⟩) = .ok (.decode a)) ∧
  ∀ (n : U32) (s : State),
    (s.config.inCap.toNat < n.toNat → exec (.decode n) s = .next (afterRefusal 0x31 s)) ∧
    (n.toNat ≤ s.config.inCap.toNat → ∃ t, exec (.decode n) s = .next t ∧
      (t.w.phase = .terminal ∧ t.status = 0 ∧ t.err = { code := 0, secType := 0, pos := 0 } ∧
          t.rsp = { status := 0, val0 := t.w.pos, val1 := BitVec.ofNat 32 t.diags.length, result := .none } ∧
          130 ≤ t.w.pos.toNat ∧ t.w.pos.toNat ≤ n.toNat ∨
        t.w.phase = .failed ∧ t.status ∈ decodeErrorCodes ∧ t.err.code = t.status ∧ t.err.pos = t.w.pos ∧
          t.pre = State.reset.pre ∧ t.cfg = State.reset.cfg ∧ t.cats = [] ∧ t.diags = [] ∧
          t.rsp = { status := t.status, val0 := t.w.pos, val1 := 0, result := .none } ∧ t.w.pos.toNat ≤ n.toNat) ∧
      t.outValid = false ∧ t.crc = s.crc ∧ t.e = s.e ∧ t.input = s.input ∧ t.host = s.host ∧ t.config = s.config)

/-- DECODE of an image: 16 preamble bytes, 112 config bytes, sections the walker accepts, the terminator, and any bytes
behind it. It ends ok with the registers loaded, the nodes and the diagnostics in image order, and the cursor behind
the terminator (44_walker.md R260 to R273). -/
def Obligations.DecodeLoadsEveryAcceptedImage : Prop :=
  ∀ (n : U32) (s : State) (p c : Bytes) (secs : List (U16 × Bytes)) (rest : Bytes),
    p.length = 16 → c.length = 112 → (∀ x ∈ secs, sectionAccepted x.1 x.2 = true) →
    (List.range n.toNat).map (fun k => inByte s.input k) = p ++ (c ++ (sectionsImage secs ++ rest)) →
    n.toNat ≤ s.config.inCap.toNat →
    withinCap s.config.catCap (imageNodes secs).length = true →
    withinCap s.config.diagCap
      (headerDiags p ++ imageDiags 128 secs).length = true →
    ∃ t, exec (.decode n) s = .next t ∧ t.status = 0 ∧ t.err = { code := 0, secType := 0, pos := 0 } ∧
      t.pre = loadPreamble p (if crcFold 0xFF p = 0 then .valid else .invalid) ∧ t.cfg = loadStdConfig c ∧
      t.cats = imageNodes secs ∧
      t.diags = headerDiags p ++ imageDiags 128 secs ∧
      t.w.phase = .terminal ∧ t.w.pos.toNat = 128 + (sectionsImage secs).length ∧ t.outValid = false ∧
      t.rsp = { status := 0, val0 := t.w.pos, val1 := BitVec.ofNat 32 t.diags.length, result := .none } ∧
      t.crc = s.crc ∧ t.e = s.e ∧ t.input = s.input ∧ t.host = s.host ∧ t.config = s.config

/-- DECODE as one command is the small-step machine run to its end: that many steps of the machine from the started
walk reach the state DECODE answers (00_scope.md R11, 44_walker.md R260). -/
def Obligations.DecodeIsItsSmallSteps : Prop :=
  ∀ (n : U32) (s : State), n.toNat ≤ s.config.inCap.toNat →
    ∃ k, k ≤ n.toNat / 4 + 4 ∧ Host.Core.run Sys2Proof.core k (startDecode n s) = exec (.decode n) s

/-- DECODE depends on the bytes `IN[0..n)` alone: two contents of IN that agree there give the same result
(44_walker.md R277). -/
def Obligations.DecodeReadsOnlyItsInput : Prop :=
  ∀ (n : U32) (s : State) (m m' : Memory), (∀ a, a < n.toNat → inByte m a = inByte m' a) →
    ∃ t : State, exec (.decode n) { s with input := m } = .next { t with input := m } ∧
      exec (.decode n) { s with input := m' } = .next { t with input := m' }

/-- The cursor in the section loop: it advances by at least 4 within the input while the loop goes on, by 2 at the
terminator, and stays at a fatal error (44_walker.md R275, R276). -/
def Obligations.CursorIsMonotonicAndBounded : Prop :=
  ∀ s : State, s.w.phase = .inSection → s.w.pos.toNat ≤ s.w.limit.toNat →
    ∃ t, step s = .next t ∧ t.w.limit = s.w.limit ∧
      (t.w.phase = .inSection ∧ s.w.pos.toNat + 4 ≤ t.w.pos.toNat ∧ t.w.pos.toNat ≤ s.w.limit.toNat ∨
        t.w.phase = .terminal ∧ t.w.pos.toNat = s.w.pos.toNat + 2 ∧ t.w.pos.toNat ≤ s.w.limit.toNat ∨
        t.w.phase = .failed ∧ t.w.pos = s.w.pos)

/-! ## ENCODE -/

/-- ENCODE, code 0x11, writes the image: header, the nodes that are not suppressed in list order, the terminator; OUT
holds exactly those bytes, OUT_LEN and E.wpos are their number, and the image is not changed (45_writer.md R290, R304).
Bit 0 of `opts` suppresses type 50, bit 1 type 51, bit 2 type 60, and nothing suppresses another type (30_encoding.md
R100, 45_writer.md R295, R296). -/
def Obligations.EncodeWritesTheImage : Prop :=
  (∀ a b c : U32, decode (.command ⟨0x11, a, b, c⟩) = .ok (.encode a b)) ∧
  ∀ (cap opts : U32) (s : State) (skip : U16 → Bool),
    (∀ t : U16, skip t = true ↔ t.toNat = 50 ∧ opts.getLsbD 0 = true ∨ t.toNat = 51 ∧ opts.getLsbD 1 = true ∨
      t.toNat = 60 ∧ opts.getLsbD 2 = true) →
    cap.toNat ≤ s.config.outCapMax.toNat → opts.toNat < 8 →
    eepromBytes s.cfg.eepromCode ≤ cap.toNat → checksumConsistent s.pre = true →
    (∀ c ∈ s.cats, nodeEncodable skip c = true) → (encodedImage skip s).length ≤ cap.toNat →
    ∃ t, exec (.encode cap opts) s = .next t ∧ t.status = 0 ∧ t.outValid = true ∧
      t.outLen.toNat = (encodedImage skip s).length ∧ (∀ a, outByte t.out a = (encodedImage skip s)[a]?) ∧
      t.e.wpos = t.outLen ∧ t.err = { code := 0, secType := 0, pos := 0 } ∧
      t.rsp = { status := 0, val0 := t.outLen, val1 := 0, result := .none } ∧
      t.pre = s.pre ∧ t.cfg = s.cfg ∧ t.cats = s.cats ∧ t.crc = s.crc ∧ t.diags = s.diags ∧ t.w = s.w ∧
      t.input = s.input ∧ t.host = s.host ∧ t.config = s.config

/-- ENCODE's errors in program order (45_writer.md R306): the refusal; the precheck; the checksum; then at the first
node that is not suppressed (R295, R296) and cannot be written UnimplementedCategory, SectionTooLarge or BufferTooSmall;
then the terminator. The response is `(code, 0, 0)`, the image and the cursor before the failing unit stay, OUT_VALID
is 0 (R305). -/
def Obligations.EncodeErrorsInProgramOrder : Prop :=
  ∀ (cap opts : U32) (s : State) (skip : U16 → Bool),
    (∀ t : U16, skip t = true ↔ t.toNat = 50 ∧ opts.getLsbD 0 = true ∨ t.toNat = 51 ∧ opts.getLsbD 1 = true ∨
      t.toNat = 60 ∧ opts.getLsbD 2 = true) →
    (s.config.outCapMax.toNat < cap.toNat ∨ 8 ≤ opts.toNat → exec (.encode cap opts) s = .next (afterRefusal 0x31 s)) ∧
    (cap.toNat ≤ s.config.outCapMax.toNat → opts.toNat < 8 →
      (cap.toNat < eepromBytes s.cfg.eepromCode →
        ∃ t, exec (.encode cap opts) s = .next t ∧ encodeFailed 0x22 0 0 0 s t) ∧
      (eepromBytes s.cfg.eepromCode ≤ cap.toNat →
        (checksumConsistent s.pre = false →
          ∃ t, exec (.encode cap opts) s = .next t ∧ encodeFailed 0x21 0 14 0 s t) ∧
        (checksumConsistent s.pre = true →
          (∀ (front back : List Category) (c : Category) (at_ : Nat), s.cats = front ++ c :: back →
            (∀ d ∈ front, nodeEncodable skip d = true) → at_ = 128 + (front.flatMap (nodeImage skip)).length →
            at_ ≤ cap.toNat → skip c.type = false →
            ∀ code : Byte,
              (c.type = 20 ∧ code = 0x12 ∨
                c.type ≠ 20 ∧ 131070 < (encodePayload c.payload).length ∧ code = 0x23 ∨
                c.type ≠ 20 ∧ (encodePayload c.payload).length ≤ 131070 ∧
                  cap.toNat < at_ + 4 + (encodePayload c.payload).length ∧ code = 0x22) →
              ∃ t, exec (.encode cap opts) s = .next t ∧
                encodeFailed code c.type (BitVec.ofNat 32 at_) (BitVec.ofNat 32 at_) s t) ∧
          ((∀ d ∈ s.cats, nodeEncodable skip d = true) → (encodedImage skip s).length - 2 ≤ cap.toNat →
            cap.toNat < (encodedImage skip s).length →
            ∃ t, exec (.encode cap opts) s = .next t ∧
              encodeFailed 0x22 0xFFFF (BitVec.ofNat 32 ((encodedImage skip s).length - 2))
                (BitVec.ofNat 32 ((encodedImage skip s).length - 2)) s t))))

/-- No byte of OUT at or above `cap` is ever written: after an ENCODE that ended ok OUT has values exactly below
OUT_LEN, which is at most `cap`; the cursor never passes `cap` (45_writer.md R303, 20_memory.md R62). -/
def Obligations.EncodeStaysBelowTheCapacity : Prop :=
  ∀ (cap opts : U32) (s t : State), exec (.encode cap opts) s = .next t →
    (t.status = 0 → t.outValid = true ∧ t.outLen.toNat ≤ cap.toNat ∧
      ∀ a, (outByte t.out a).isSome = true ↔ a < t.outLen.toNat) ∧
    (t.status ≠ 0x31 → t.e.wpos.toNat ≤ cap.toNat)

/-- Every preamble ENCODE emits folds to 0, so decoding it gives Valid (41_header_codecs.md R148). -/
def Obligations.EmittedPreambleFoldsToZero : Prop :=
  ∀ (cap opts : U32) (s t : State), exec (.encode cap opts) s = .next t → t.status = 0 →
    ∃ b : Bytes, b.length = 16 ∧ (∀ k, k < 16 → outByte t.out k = b[k]?) ∧ crcFold 0xFF b = 0 ∧ checksumFlag b = .valid

/-- Byte-exact round trip (45_writer.md R313): DECODE of a well-formed image followed by ENCODE gives the image back,
less the sections of the types that `opts` suppresses: 50 by bit 0, 51 by bit 1, 60 by bit 2 (R295, R296). -/
def Obligations.DecodeThenEncodeRoundTrip : Prop :=
  ∀ (s : State) (n cap opts : U32) (p c : Bytes) (secs : List (U16 × Bytes)) (skip : U16 → Bool) (img : Bytes),
    (∀ t : U16, skip t = true ↔ t.toNat = 50 ∧ opts.getLsbD 0 = true ∨ t.toNat = 51 ∧ opts.getLsbD 1 = true ∨
      t.toNat = 60 ∧ opts.getLsbD 2 = true) →
    canonicalPreamble p = true → canonicalStdConfig c = true →
    (∀ x ∈ secs, payloadWf x.2 = true ∧ x.1 ∈ codecTypes ∧ canonicalPayload x.1 x.2 = true) →
    (List.range n.toNat).map (fun k => inByte s.input k) = p ++ (c ++ sectionsImage secs) →
    n.toNat ≤ s.config.inCap.toNat → withinCap s.config.catCap secs.length = true →
    opts.toNat < 8 →
    img = p ++ (c ++ sectionsImage (secs.filter (fun x => !(skip x.1)))) →
    img.length ≤ cap.toNat → eepromBytes (rd16 c 108) ≤ cap.toNat → cap.toNat ≤ s.config.outCapMax.toNat →
    ∃ t u, exec (.decode n) s = .next t ∧ t.status = 0 ∧ t.w.pos = n ∧ t.diags = [] ∧
      exec (.encode cap opts) t = .next u ∧ u.status = 0 ∧ u.outLen.toNat = img.length ∧ ∀ a, outByte u.out a = img[a]?

/-! ## The registry and the string table -/

/-- APPEND, code 0x20, stores the section it is handed (42_registry.md R170, R171): its tests in order, the decoded node at the
tail, and the index of the new node as the answer. A full registry is refused with RegistryFull, 0x33. -/
def Obligations.AppendStoresTheSection : Prop :=
  (∀ a b c : U32, decode (.command ⟨0x20, a, b, c⟩) = .ok (.append a b)) ∧
  ∀ (a len : U32) (s : State) (b : Bytes), b = (List.range len.toNat).map (fun k => inByte s.input (a.toNat + k)) →
    (s.config.inCap.toNat < a.toNat + len.toNat ∨ len.toNat < 4 ∨ len.toNat ≠ 4 + 2 * (rd16 b 2).toNat ∨
        rd16 b 0 ∉ ([10, 20, 30, 40, 41, 50, 51, 60] : List U16) → exec (.append a len) s = .next (afterRefusal 0x31 s)) ∧
    (a.toNat + len.toNat ≤ s.config.inCap.toNat → len.toNat = 4 + 2 * (rd16 b 2).toNat → rd16 b 0 ∈ ([10, 20, 30, 40, 41, 50, 51, 60] : List U16) →
      (s.config.catCap = some s.cats.length → exec (.append a len) s = .next (afterRefusal 0x33 s)) ∧
      (s.config.catCap ≠ some s.cats.length →
        (rd16 b 0 ≠ 20 → decodePayload (rd16 b 0) (b.drop 4) = none →
          exec (.append a len) s = .next (afterRefusal 0x31 s)) ∧
        (∀ v : Payload, rd16 b 0 = 20 ∧ v = .datatypes ∨ rd16 b 0 ≠ 20 ∧ decodePayload (rd16 b 0) (b.drop 4) = some v →
          exec (.append a len) s = .next (finish (BitVec.ofNat 32 s.cats.length) 0 .none
            { s with cats := s.cats ++ [{ type := rd16 b 0, sizeBytes := 2 * (rd16 b 2).toNat, payload := v }] }))))

/-- FIND, code 0x21, answers the least index of a node of the type, or not found; FIND_NEIGHBOR, code 0x24, answers the same for a valid
index
(42_registry.md R173, R178). -/
def Obligations.FindAnswersTheFirstOfTheType : Prop :=
  (∀ a b c : U32, decode (.command ⟨0x21, a, b, c⟩) = .ok (.find a)) ∧
  (∀ a b c : U32, decode (.command ⟨0x24, a, b, c⟩) = .ok (.findNeighbor a b)) ∧
  ∀ (s : State) (i t : U32),
    (0xFFFF < t.toNat → exec (.find t) s = .next (afterRefusal 0x31 s)) ∧
    (s.cats.length ≤ i.toNat → exec (.findNeighbor i t) s = .next (afterRefusal 0x36 s)) ∧
    (i.toNat < s.cats.length → 0xFFFF < t.toNat → exec (.findNeighbor i t) s = .next (afterRefusal 0x31 s)) ∧
    (t.toNat ≤ 0xFFFF →
      (∀ (k : Nat) (c : Category), s.cats[k]? = some c → c.type.toNat = t.toNat →
        (∀ (j : Nat) (d : Category), j < k → s.cats[j]? = some d → d.type.toNat ≠ t.toNat) →
        exec (.find t) s = .next (finish 1 (BitVec.ofNat 32 k) .none s) ∧
        (i.toNat < s.cats.length → exec (.findNeighbor i t) s = .next (finish 1 (BitVec.ofNat 32 k) .none s))) ∧
      ((∀ c ∈ s.cats, c.type.toNat ≠ t.toNat) →
        exec (.find t) s = .next (finish 0 0 .none s) ∧
        (i.toNat < s.cats.length → exec (.findNeighbor i t) s = .next (finish 0 0 .none s))))

/-- REMOVE_LAST, code 0x22, takes the tail away and is refused on an empty registry with RegistryEmpty, 0x32 (42_registry.md R174). -/
def Obligations.RemoveLastTakesTheTail : Prop :=
  (∀ a b c : U32, decode (.command ⟨0x22, a, b, c⟩) = .ok .removeLast) ∧
  ∀ s : State,
    (s.cats = [] → exec .removeLast s = .next (afterRefusal 0x32 s)) ∧
    (∀ (front : List Category) (c : Category), s.cats = front ++ [c] →
      exec .removeLast s = .next (finish 0 0 .none { s with cats := front }))

/-- SORT, code 0x23, gives the permutation with ascending types that keeps the order of equal types; it changes nothing else, and a
second SORT changes nothing (42_registry.md R175, R176). -/
def Obligations.SortIsStableAndIdempotent : Prop :=
  (∀ a b c : U32, decode (.command ⟨0x23, a, b, c⟩) = .ok .sort) ∧
  ∀ s : State, ∃ l : List Category, exec .sort s = .next (finish 0 0 .none { s with cats := l }) ∧
    l.Perm s.cats ∧ l.Pairwise (fun c d => c.type.toNat ≤ d.type.toNat) ∧
    (∀ t : U16, l.filter (fun c => c.type == t) = s.cats.filter (fun c => c.type == t)) ∧
    exec .sort (finish 0 0 .none { s with cats := l }) = .next (finish 0 0 .none { s with cats := l })

/-- RELEASE, code 0x12, restores the empty image and the idle walker and leaves CRC, ERR, DIAG and the writer as they are
(42_registry.md R180). -/
def Obligations.ReleaseRestoresTheEmptyImage : Prop :=
  (∀ a b c : U32, decode (.command ⟨0x12, a, b, c⟩) = .ok .release) ∧
  ∀ s : State, ∃ t, exec .release s = .next t ∧ t.pre = State.reset.pre ∧ t.cfg = State.reset.cfg ∧ t.cats = [] ∧
    t.outValid = false ∧ t.w = { s.w with pos := 0, phase := .idle } ∧ t.crc = s.crc ∧ t.err = s.err ∧
    t.diags = s.diags ∧ t.e = s.e ∧ t.status = 0 ∧
    t.rsp = { status := 0, val0 := 0, val1 := 0, result := .none } ∧ t.input = s.input ∧ t.host = s.host ∧
    t.config = s.config

/-- RD_CAT, code 0x25, answers the node at the index, RD_DIAG, code 0x32, the record at the index with bits 15:8 zero; an index beyond the list
is refused (42_registry.md R181, 60_exceptions.md R333). -/
def Obligations.ReadOutCommandsAnswerTheElement : Prop :=
  (∀ a b c : U32, decode (.command ⟨0x25, a, b, c⟩) = .ok (.rdCat a)) ∧
  (∀ a b c : U32, decode (.command ⟨0x32, a, b, c⟩) = .ok (.rdDiag a)) ∧
  ∀ (s : State) (i : U32),
    (∀ c : Category, s.cats[i.toNat]? = some c →
      exec (.rdCat i) s = .next (finish (c.type.setWidth 32) (BitVec.ofNat 32 c.sizeBytes) (.payload c.payload) s)) ∧
    (s.cats.length ≤ i.toNat → exec (.rdCat i) s = .next (afterRefusal 0x36 s)) ∧
    (∀ d : ErrRec, s.diags[i.toNat]? = some d →
      ∃ v : U32, exec (.rdDiag i) s = .next (finish v d.pos .none s) ∧
        v.toNat = d.code.toNat + 65536 * d.secType.toNat) ∧
    (s.diags.length ≤ i.toNat → exec (.rdDiag i) s = .next (afterRefusal 0x36 s))

/-- STR_ADD, code 0x28, appends the string and answers its ID, which then names it, while every earlier ID names what it named
(42_registry.md R182, R183); its refusals come in the order of its tests. -/
def Obligations.StrAddGivesTheNextId : Prop :=
  (∀ a b c : U32, decode (.command ⟨0x28, a, b, c⟩) = .ok (.strAdd a b c)) ∧
  ∀ (i a len : U32) (s : State) (x : Bytes), x = (List.range len.toNat).map (fun k => inByte s.input (a.toNat + k)) →
    (s.cats.length ≤ i.toNat → exec (.strAdd i a len) s = .next (afterRefusal 0x36 s)) ∧
    (∀ c : Category, s.cats[i.toNat]? = some c →
      (c.type ≠ 10 → exec (.strAdd i a len) s = .next (afterRefusal 0x35 s)) ∧
      (∀ strs : List Bytes, c.type = 10 → c.payload = .strings strs →
        (s.config.inCap.toNat < a.toNat + len.toNat ∨ 255 < len.toNat ∨ strs.length = 255 →
          exec (.strAdd i a len) s = .next (afterRefusal 0x31 s)) ∧
        (a.toNat + len.toNat ≤ s.config.inCap.toNat → len.toNat ≤ 255 → strs.length < 255 →
          ∃ t, t = finish (BitVec.ofNat 32 (strs.length + 1)) 0 .none
              { s with cats := s.cats.set i.toNat { c with payload := .strings (strs ++ [x]) } } ∧
            exec (.strAdd i a len) s = .next t ∧
            exec (.strById i (BitVec.ofNat 32 (strs.length + 1))) t = .next (finish 1 len (.bytes x) t) ∧
            ∀ (k : Nat) (y : Bytes), strs[k]? = some y →
              exec (.strById i (BitVec.ofNat 32 (k + 1))) t = .next (finish 1 (BitVec.ofNat 32 y.length) (.bytes y) t))))

/-- STR_BY_ID, code 0x29, answers the string with the 1-based ID, and not found for 0 and for IDs above the count
(42_registry.md R184). -/
def Obligations.StrByIdIsOneBased : Prop :=
  (∀ a b c : U32, decode (.command ⟨0x29, a, b, c⟩) = .ok (.strById a b)) ∧
  ∀ (i k : U32) (s : State),
    (s.cats.length ≤ i.toNat → exec (.strById i k) s = .next (afterRefusal 0x36 s)) ∧
    (∀ c : Category, s.cats[i.toNat]? = some c →
      (c.type ≠ 10 → exec (.strById i k) s = .next (afterRefusal 0x35 s)) ∧
      (∀ strs : List Bytes, c.type = 10 → c.payload = .strings strs →
        (∀ h : 1 ≤ k.toNat ∧ k.toNat ≤ strs.length, exec (.strById i k) s =
          .next (finish 1 (BitVec.ofNat 32 (strs[k.toNat - 1]'(by omega)).length) (.bytes (strs[k.toNat - 1]'(by omega))) s)) ∧
        (k.toNat = 0 ∨ strs.length < k.toNat → exec (.strById i k) s = .next (finish 0 0 .none s))))

/-- STR_FIND, code 0x2A, answers the lowest ID whose string has exactly the bytes, or 0 (42_registry.md R185). -/
def Obligations.StrFindAnswersTheLowestId : Prop :=
  (∀ a b c : U32, decode (.command ⟨0x2A, a, b, c⟩) = .ok (.strFind a b c)) ∧
  ∀ (i a len : U32) (s : State) (x : Bytes), x = (List.range len.toNat).map (fun k => inByte s.input (a.toNat + k)) →
    (s.cats.length ≤ i.toNat → exec (.strFind i a len) s = .next (afterRefusal 0x36 s)) ∧
    (∀ c : Category, s.cats[i.toNat]? = some c →
      (c.type ≠ 10 → exec (.strFind i a len) s = .next (afterRefusal 0x35 s)) ∧
      (∀ strs : List Bytes, c.type = 10 → c.payload = .strings strs →
        (s.config.inCap.toNat < a.toNat + len.toNat → exec (.strFind i a len) s = .next (afterRefusal 0x31 s)) ∧
        (a.toNat + len.toNat ≤ s.config.inCap.toNat →
          (∀ j : Nat, strs[j]? = some x → (∀ k : Nat, k < j → strs[k]? ≠ some x) →
            exec (.strFind i a len) s = .next (finish (BitVec.ofNat 32 (j + 1)) 0 .none s)) ∧
          (x ∉ strs → exec (.strFind i a len) s = .next (finish 0 0 .none s)))))

/-! ## The whole machine -/

/-- Every instruction answers a next state, and every host command ends in one of three ways: ok with STATUS 0; fatal,
by DECODE or ENCODE alone, with the code in STATUS and ERR; refused, with nothing changed but STATUS and the response
(00_scope.md R10, 60_exceptions.md R332). -/
def Obligations.EveryCommandEndsInOneOfThreeWays : Prop :=
  ∀ (i : Instr) (s : State), ∃ t, exec i s = .next t ∧
    (isHostCommand i = true →
      t.rsp.status = t.status ∧
      (t.status = 0 ∨
        (t.status ∈ decodeErrorCodes ∧ (∃ n, i = .decode n) ∨ t.status ∈ encodeErrorCodes ∧ (∃ cap opts, i = .encode cap opts)) ∧
          t.err.code = t.status ∨
        t.status ∈ refusalCodes ∧
          t = { s with status := t.status, rsp := { status := t.status, val0 := 0, val1 := 0, result := .none } }))

/-- Each element of the state is changed by its writers alone (10_state.md R22 to R27, R36, R38, R41 to R44): the frame
of every host command. -/
def Obligations.HostCommandsWriteOnlyTheirElements : Prop :=
  ∀ (i : Instr) (s t : State), isHostCommand i = true → exec i s = .next t →
    (writesCrc i = false → t.crc = s.crc) ∧ (writesHeader i = false → t.pre = s.pre ∧ t.cfg = s.cfg) ∧
    (writesWalker i = false → t.w = s.w ∧ t.pre.csumValid = s.pre.csumValid) ∧ (writesCats i = false → t.cats = s.cats) ∧
    (writesOut i = false → t.outValid = s.outValid ∧ t.outLen = s.outLen ∧ ∀ a, outByte t.out a = outByte s.out a) ∧
    (writesErr i = false → t.err = s.err) ∧ (writesDiag i = false → t.diags = s.diags) ∧
    (writesWriter i = false → t.e = s.e) ∧ (∀ a, inByte t.input a = inByte s.input a) ∧ t.host = s.host ∧
    t.config = s.config

/-- The state invariant of 10_state.md R49, with canonical memories, assigned status codes and the cursor's bounds, is
kept by every step from every state that has it. -/
def Obligations.StepKeepsTheStateInvariant : Prop :=
  ∀ s t : State, stateInv s = true → step s = .next t → stateInv t = true

/-- The state invariant holds right after reset, for every instance. -/
def Obligations.StateInvariantHoldsAtReset : Prop :=
  stateInv State.reset = true ∧ ∀ c : Config, stateInv (State.resetWith c) = true
end

