-- ==== Sys2Proof/Laws/Bytes.lean ====
section
/-! SUPPORT. The laws of byte strings: lengths, and that reading a field gives back what writing it laid down. -/

namespace Sys2Proof.Machine

@[simp] theorem le16_length (v : U16) : (le16 v).length = 2 := rfl
@[simp] theorem le32_length (v : U32) : (le32 v).length = 4 := rfl
@[simp] theorem lei16_length (v : Int) : (lei16 v).length = 2 := rfl
@[simp] theorem zeros_length (n : Nat) : (zeros n).length = n := List.length_replicate

@[simp] theorem natBytes_length (n w : Nat) : (natBytes n w).length = n := by
  induction n generalizing w with
  | zero => rfl
  | succ n ih => simp [natBytes, ih]

@[simp] theorem rd8_cons_zero (x : Byte) (b : Bytes) : rd8 (x :: b) 0 = x := rfl
@[simp] theorem rd8_cons_succ (x : Byte) (b : Bytes) (o : Nat) : rd8 (x :: b) (o + 1) = rd8 b o := rfl

theorem rd8_of_lt {b : Bytes} {o : Nat} (h : o < b.length) : rd8 b o = b[o] := by
  simp [rd8, List.getD_eq_getElem?_getD, h]

theorem rd8_append_left {b c : Bytes} {o : Nat} (h : o < b.length) : rd8 (b ++ c) o = rd8 b o := by
  simp [rd8, List.getD_eq_getElem?_getD, List.getElem?_append_left h]

theorem rd8_append_right {b c : Bytes} {o : Nat} (h : b.length ≤ o) : rd8 (b ++ c) o = rd8 c (o - b.length) := by
  simp [rd8, List.getD_eq_getElem?_getD, List.getElem?_append_right h]

theorem rd8_zeros (n o : Nat) : rd8 (zeros n) o = 0 := by
  by_cases h : o < n <;> simp [rd8, zeros, List.getD_eq_getElem?_getD, h]

/-- The two bytes of a `u16` put together again (20_memory.md R64, R67). -/
@[simp] theorem u16of_extract (v : U16) : u16of (v.extractLsb' 0 8) (v.extractLsb' 8 8) = v := by
  apply BitVec.eq_of_getLsbD_eq
  intro i hi
  simp only [u16of, BitVec.getLsbD_append, BitVec.getLsbD_extractLsb']
  by_cases h : i < 8
  · simp [h]
  · have e : 8 + (i - 8) = i := by omega
    have h2 : i - 8 < 8 := by omega
    simp [h, h2, e]

/-- The four bytes of a `u32` put together again (20_memory.md R64, R67). -/
@[simp] theorem u32of_extract (v : U32) :
    u32of (v.extractLsb' 0 8) (v.extractLsb' 8 8) (v.extractLsb' 16 8) (v.extractLsb' 24 8) = v := by
  apply BitVec.eq_of_getLsbD_eq
  intro i hi
  simp only [u32of, BitVec.getLsbD_append, BitVec.getLsbD_extractLsb']
  by_cases h1 : i < 8
  · have h2 : i < 16 := by omega
    have h3 : i < 24 := by omega
    simp [h1, h2, h3]
  · by_cases h2 : i < 16
    · have e : 8 + (i - 8) = i := by omega
      have h3 : i < 24 := by omega
      have h4 : i - 8 < 8 := by omega
      simp [h1, h2, h3, h4, e]
    · by_cases h3 : i < 24
      · have e : 16 + (i - 16) = i := by omega
        have h4 : i - 16 < 8 := by omega
        simp [h2, h3, h4, e]
      · have e : 24 + (i - 24) = i := by omega
        have h4 : i - 24 < 8 := by omega
        simp [h3, h4, e]

/-- The low byte of a `u16` is its first on the wire (20_memory.md R64). -/
@[simp] theorem extract_u16of_low (x y : Byte) : (u16of x y).extractLsb' 0 8 = x := by
  apply BitVec.eq_of_getLsbD_eq
  intro i hi
  simp only [u16of, BitVec.getLsbD_extractLsb', BitVec.getLsbD_append]
  simp [hi]

/-- The high byte of a `u16` is its second on the wire (20_memory.md R64). -/
@[simp] theorem extract_u16of_high (x y : Byte) : (u16of x y).extractLsb' 8 8 = y := by
  apply BitVec.eq_of_getLsbD_eq
  intro i hi
  simp only [u16of, BitVec.getLsbD_extractLsb', BitVec.getLsbD_append]
  simp [hi]

/-- `le16(rd16(B, 0))` is the first two bytes (20_memory.md R65, R67). -/
theorem le16_u16of (x y : Byte) : le16 (u16of x y) = [x, y] := by simp [le16]

/-- `rd16` of a written `u16` at the head. -/
@[simp] theorem rd16_le16_append (v : U16) (b : Bytes) : rd16 (le16 v ++ b) 0 = v := by
  simp [rd16, le16]

/-- `rd32` of a written `u32` at the head. -/
@[simp] theorem rd32_le32_append (v : U32) (b : Bytes) : rd32 (le32 v ++ b) 0 = v := by
  simp [rd32, le32]

theorem rd16_append_right {b c : Bytes} {o : Nat} (h : b.length ≤ o) : rd16 (b ++ c) o = rd16 c (o - b.length) := by
  have e : o + 1 - b.length = o - b.length + 1 := by omega
  simp [rd16, rd8_append_right h, rd8_append_right (show b.length ≤ o + 1 by omega), e]

theorem rd16_append_left {b c : Bytes} {o : Nat} (h : o + 1 < b.length) : rd16 (b ++ c) o = rd16 b o := by
  simp [rd16, rd8_append_left h, rd8_append_left (show o < b.length by omega)]

/-- A nibble pair taken apart (30_encoding.md R92 d). -/
@[simp] theorem lowNibble_nibbles (lo hi : BitVec 4) : lowNibble (nibbles lo hi) = lo := by
  apply BitVec.eq_of_getLsbD_eq
  intro i h
  simp only [lowNibble, nibbles, BitVec.getLsbD_extractLsb', BitVec.getLsbD_append]
  simp [h]

@[simp] theorem highNibble_nibbles (lo hi : BitVec 4) : highNibble (nibbles lo hi) = hi := by
  apply BitVec.eq_of_getLsbD_eq
  intro i h
  simp only [highNibble, nibbles, BitVec.getLsbD_extractLsb', BitVec.getLsbD_append]
  simp [h]

end Sys2Proof.Machine
end

