-- ==== Sys2Proof/Laws/Memory.lean ====
section
/-! SUPPORT. The laws of the two byte spaces: a read after a write, the canonical form, and that contents decide a
canonical list. -/

namespace Sys2Proof.Machine

/-! ## What is read -/

theorem lookup_append (m n : Memory) (x : Nat) :
    lookup (m ++ n) x = match lookup m x with | some b => some b | none => lookup n x := by
  induction m with
  | nil => rfl
  | cons c m ih =>
    obtain ⟨y, b⟩ := c
    by_cases h : y = x <;> simp [lookup, h, ih]

theorem lookup_filter (p : Nat → Bool) (m : Memory) (x : Nat) :
    lookup (m.filter (fun c => p c.1)) x = if p x then lookup m x else none := by
  induction m with
  | nil => simp [lookup]
  | cons c m ih =>
    obtain ⟨y, b⟩ := c
    by_cases h : y = x
    · subst h; by_cases hp : p y <;> simp [hp, lookup, ih]
    · by_cases hp : p y <;> simp [hp, lookup, ih, h]

/-- What `cellsOf` lists: the bytes, less those that read as unlisted anyway. -/
theorem lookup_cellsOf (d : Option Byte) (b : Bytes) (a x : Nat) :
    lookup (cellsOf d a b) x =
      if a ≤ x ∧ x < a + b.length then (if b[x - a]? = d then none else b[x - a]?) else none := by
  induction b generalizing a with
  | nil => simp [cellsOf, lookup]
  | cons y b ih =>
    by_cases hx : a = x
    · subst hx
      by_cases hy : some y = d
      · simp [cellsOf, hy, ih]
      · simp [cellsOf, hy, lookup]
    · by_cases hr : a + 1 ≤ x ∧ x < a + 1 + b.length
      · have e : x - a = (x - (a + 1)) + 1 := by omega
        have r : a ≤ x ∧ x < a + (b.length + 1) := by omega
        by_cases hy : some y = d <;> simp [cellsOf, hy, lookup, hx, ih, hr, r, e]
      · have r : ¬(a ≤ x ∧ x < a + (b.length + 1)) := by omega
        by_cases hy : some y = d <;> simp only [cellsOf, hy, if_true, if_false, lookup, hx, ih, hr, List.length_cons, r]

/-- A write lists its own bytes and leaves every other address alone. -/
theorem lookup_writeBlock (d : Option Byte) (a : Nat) (b : Bytes) (m : Memory) (x : Nat) :
    lookup (writeBlock d a b m) x =
      if a ≤ x ∧ x < a + b.length then (if b[x - a]? = d then none else b[x - a]?) else lookup m x := by
  have f1 := lookup_filter (fun y => decide (y < a)) m x
  have f2 := lookup_filter (fun y => decide (a + b.length ≤ y)) m x
  simp only [decide_eq_true_eq] at f1 f2
  rw [writeBlock, lookup_append, lookup_append, f1, f2, lookup_cellsOf]
  by_cases h1 : x < a
  · have : ¬(a ≤ x ∧ x < a + b.length) := by omega
    have h2 : ¬(a + b.length ≤ x) := by omega
    simp [h1, this, h2]
    cases lookup m x <;> rfl
  · by_cases h2 : a + b.length ≤ x
    · have : ¬(a ≤ x ∧ x < a + b.length) := by omega
      simp [h1, this, h2]
    · have : a ≤ x ∧ x < a + b.length := by omega
      simp only [h1, h2, this, and_self, if_true, if_false]
      cases hc : (if b[x - a]? = d then none else b[x - a]?) <;> rfl

/-- A byte of IN after a write: the byte written there, else the byte before. -/
theorem inByte_writeBlock (a : Nat) (b : Bytes) (m : Memory) (x : Nat) :
    inByte (writeBlock inUnlisted a b m) x = if a ≤ x ∧ x < a + b.length then b.getD (x - a) 0 else inByte m x := by
  unfold inByte
  rw [lookup_writeBlock]
  by_cases h : a ≤ x ∧ x < a + b.length
  · have hl : x - a < b.length := by omega
    by_cases hb : b[x - a]? = inUnlisted
    · simp only [h, hb, and_self, if_true, List.getD_eq_getElem?_getD]
    · have := List.getElem?_eq_getElem hl
      simp [h, this, List.getD_eq_getElem?_getD]
      rw [this] at hb
      simp [hb]
  · simp [h]

/-- A byte of OUT after a write: the byte written there, else what was there. -/
theorem outByte_writeBlock (a : Nat) (b : Bytes) (m : Memory) (x : Nat) :
    outByte (writeBlock outUnlisted a b m) x = if a ≤ x ∧ x < a + b.length then b[x - a]? else outByte m x := by
  unfold outByte
  rw [lookup_writeBlock]
  by_cases h : a ≤ x ∧ x < a + b.length
  · have hl : x - a < b.length := by omega
    have := List.getElem?_eq_getElem hl
    simp [h, this, outUnlisted]
  · simp [h]

/-! ## Blocks -/

@[simp] theorem readBlock_length (m : Memory) (a n : Nat) : (readBlock m a n).length = n := by
  induction n generalizing a with
  | zero => rfl
  | succ n ih => simp [readBlock, ih]

/-- A block is the bytes at its addresses, lowest first. -/
theorem readBlock_eq_map (m : Memory) (a n : Nat) :
    readBlock m a n = (List.range n).map (fun k => inByte m (a + k)) := by
  induction n generalizing a with
  | zero => rfl
  | succ n ih =>
    rw [readBlock, ih, List.range_succ_eq_map]
    simp [Function.comp_def, Nat.add_assoc, Nat.add_comm 1]

/-- A block depends on its own bytes alone. -/
theorem readBlock_congr {m m' : Memory} {a n : Nat} (h : ∀ x, a ≤ x → x < a + n → inByte m x = inByte m' x) :
    readBlock m a n = readBlock m' a n := by
  rw [readBlock_eq_map, readBlock_eq_map]
  refine List.map_congr_left fun k hk => h _ (by omega) ?_
  have := List.mem_range.mp hk
  omega

/-- A block in two parts. -/
theorem readBlock_add (m : Memory) (a k n : Nat) : readBlock m a (k + n) = readBlock m a k ++ readBlock m (a + k) n := by
  induction k generalizing a with
  | zero => simp [readBlock]
  | succ k ih =>
    rw [show k + 1 + n = (k + n) + 1 by omega, readBlock, readBlock, ih, show a + (k + 1) = a + 1 + k by omega]
    rfl

/-! ## The canonical form -/

theorem wfFrom_mono {d : Option Byte} {lo hi : Nat} {m : Memory} (h : lo ≤ hi) (w : Memory.wfFrom d hi m = true) :
    Memory.wfFrom d lo m = true := by
  cases m with
  | nil => rfl
  | cons c m =>
    obtain ⟨x, b⟩ := c
    simp only [Memory.wfFrom, Bool.and_eq_true, decide_eq_true_eq] at w ⊢
    exact ⟨⟨⟨by omega, w.1.1.2⟩, w.1.2⟩, w.2⟩

/-- Leaving cells out keeps the form. -/
theorem wfFrom_filter {d : Option Byte} (p : Host.Cell → Bool) {lo : Nat} {m : Memory} (w : Memory.wfFrom d lo m = true) :
    Memory.wfFrom d lo (m.filter p) = true := by
  induction m generalizing lo with
  | nil => rfl
  | cons c m ih =>
    obtain ⟨x, b⟩ := c
    simp only [Memory.wfFrom, Bool.and_eq_true, decide_eq_true_eq] at w
    by_cases hp : p (x, b)
    · simp only [List.filter_cons, hp, if_true, Memory.wfFrom, Bool.and_eq_true, decide_eq_true_eq]
      exact ⟨w.1, ih w.2⟩
    · simp only [List.filter_cons, hp]
      exact wfFrom_mono (by omega) (ih w.2)

/-- Two parts, the second above the first. -/
theorem wfFrom_append {d : Option Byte} {lo mid : Nat} {m n : Memory} (hm : Memory.wfFrom d lo m = true)
    (hlt : ∀ c ∈ m, c.1 < mid) (hlo : lo ≤ mid) (hn : Memory.wfFrom d mid n = true) :
    Memory.wfFrom d lo (m ++ n) = true := by
  induction m generalizing lo with
  | nil => exact wfFrom_mono hlo hn
  | cons c m ih =>
    obtain ⟨x, b⟩ := c
    have hx : x < mid := hlt (x, b) List.mem_cons_self
    simp only [List.cons_append, Memory.wfFrom, Bool.and_eq_true, decide_eq_true_eq] at hm ⊢
    exact ⟨hm.1, ih hm.2 (fun c hc => hlt c (List.mem_cons_of_mem _ hc)) (by omega)⟩

theorem wfFrom_cellsOf {d : Option Byte} {a : Nat} {b : Bytes} (h : a + b.length ≤ spaceSize) :
    Memory.wfFrom d a (cellsOf d a b) = true := by
  induction b generalizing a with
  | nil => rfl
  | cons y b ih =>
    simp only [List.length_cons] at h
    have := ih (a := a + 1) (by omega)
    by_cases hy : some y = d
    · simpa [cellsOf, hy] using wfFrom_mono (by omega) this
    · have ha : a < spaceSize := by omega
      simp [cellsOf, hy, Memory.wfFrom, this, ha]

theorem cellsOf_lt {d : Option Byte} {a : Nat} {b : Bytes} : ∀ c ∈ cellsOf d a b, c.1 < a + b.length := by
  induction b generalizing a with
  | nil => simp [cellsOf]
  | cons y b ih =>
    intro c hc
    by_cases hy : some y = d
    · have := ih (a := a + 1) c (by simpa [cellsOf, hy] using hc)
      simp only [List.length_cons]; omega
    · simp only [cellsOf, hy, if_false, List.mem_cons] at hc
      simp only [List.length_cons]
      rcases hc with rfl | hc
      · simp
      · have := ih (a := a + 1) c hc
        omega

/-- The cells from `hi` on, of a list in canonical form, are in canonical form from `hi` on. -/
theorem wfFrom_filter_ge {d : Option Byte} {lo hi : Nat} {m : Memory} (w : Memory.wfFrom d lo m = true) :
    Memory.wfFrom d hi (m.filter (fun c => decide (hi ≤ c.1))) = true := by
  induction m generalizing lo with
  | nil => rfl
  | cons c m ih =>
    obtain ⟨x, b⟩ := c
    simp only [Memory.wfFrom, Bool.and_eq_true, decide_eq_true_eq] at w
    by_cases hx : hi ≤ x
    · simp only [List.filter_cons, hx, decide_true, if_true, Memory.wfFrom, Bool.and_eq_true, decide_eq_true_eq]
      exact ⟨⟨⟨trivial, w.1.1.2⟩, w.1.2⟩, wfFrom_filter _ w.2⟩
    · simp only [List.filter_cons, hx, decide_false]
      exact ih w.2

/-- A write inside the space keeps the canonical form. -/
theorem wf_writeBlock {d : Option Byte} {a : Nat} {b : Bytes} {m : Memory} (h : a + b.length ≤ spaceSize)
    (w : Memory.wf d m = true) : Memory.wf d (writeBlock d a b m) = true := by
  unfold Memory.wf writeBlock at *
  rw [List.append_assoc]
  refine wfFrom_append (mid := a) (wfFrom_filter _ w) ?_ (Nat.zero_le _) ?_
  · intro c hc
    simpa using (List.mem_filter.mp hc).2
  · exact wfFrom_append (wfFrom_cellsOf h) cellsOf_lt (by omega) (wfFrom_filter_ge w)

theorem wf_nil (d : Option Byte) : Memory.wf d [] = true := rfl

/-! ## Contents decide the list -/

theorem lookup_below {d : Option Byte} {lo x : Nat} {m : Memory} (w : Memory.wfFrom d lo m = true) (h : x < lo) :
    lookup m x = none := by
  induction m generalizing lo with
  | nil => rfl
  | cons c m ih =>
    obtain ⟨y, b⟩ := c
    simp only [Memory.wfFrom, Bool.and_eq_true, decide_eq_true_eq] at w
    have hy : y ≠ x := by omega
    simp only [lookup, hy, if_false]
    exact ih w.2 (by omega)

/-- Two lists in canonical form with the same cells are the same list. -/
theorem wfFrom_ext {d : Option Byte} {lo : Nat} {m n : Memory} (wm : Memory.wfFrom d lo m = true)
    (wn : Memory.wfFrom d lo n = true) (h : ∀ x, lookup m x = lookup n x) : m = n := by
  induction m generalizing lo n with
  | nil =>
    cases n with
    | nil => rfl
    | cons c n => have := h c.1; simp [lookup] at this
  | cons c m ih =>
    obtain ⟨x, b⟩ := c
    cases n with
    | nil => have := h x; simp [lookup] at this
    | cons c' n =>
      obtain ⟨y, b'⟩ := c'
      simp only [Memory.wfFrom, Bool.and_eq_true, decide_eq_true_eq] at wm wn
      have hxy : x = y := by
        by_contra hne
        rcases Nat.lt_or_gt_of_ne hne with hlt | hgt
        · have := h x
          simp [lookup, Ne.symm hne, lookup_below wn.2 (show x < y + 1 by omega)] at this
        · have := h y
          simp [lookup, hne, lookup_below wm.2 (show y < x + 1 by omega)] at this
      subst hxy
      have hb : b = b' := by simpa [lookup] using h x
      subst hb
      congr 1
      refine ih wm.2 wn.2 fun z => ?_
      by_cases hz : x = z
      · subst hz
        rw [lookup_below wm.2 (Nat.lt_succ_self _), lookup_below wn.2 (Nat.lt_succ_self _)]
      · simpa [lookup, hz] using h z

end Sys2Proof.Machine
end

