-- ==== Sys2Proof/Laws/State.lean ====
section
/-! SUPPORT. What each named update leaves in each field of the state: one lemma a field, all by `rfl`, so that no
proof unfolds a record update. -/

namespace Sys2Proof.Machine

/-! ## finish -/

@[simp] theorem finish_crc (v0 v1 : U32) (r : Result) (s : State) : (finish v0 v1 r s).crc = s.crc := rfl
@[simp] theorem finish_pre (v0 v1 : U32) (r : Result) (s : State) : (finish v0 v1 r s).pre = s.pre := rfl
@[simp] theorem finish_cfg (v0 v1 : U32) (r : Result) (s : State) : (finish v0 v1 r s).cfg = s.cfg := rfl
@[simp] theorem finish_cats (v0 v1 : U32) (r : Result) (s : State) : (finish v0 v1 r s).cats = s.cats := rfl
@[simp] theorem finish_out (v0 v1 : U32) (r : Result) (s : State) : (finish v0 v1 r s).out = s.out := rfl
@[simp] theorem finish_outLen (v0 v1 : U32) (r : Result) (s : State) : (finish v0 v1 r s).outLen = s.outLen := rfl
@[simp] theorem finish_outValid (v0 v1 : U32) (r : Result) (s : State) : (finish v0 v1 r s).outValid = s.outValid := rfl
@[simp] theorem finish_status (v0 v1 : U32) (r : Result) (s : State) : (finish v0 v1 r s).status = 0 := rfl
@[simp] theorem finish_err (v0 v1 : U32) (r : Result) (s : State) : (finish v0 v1 r s).err = s.err := rfl
@[simp] theorem finish_diags (v0 v1 : U32) (r : Result) (s : State) : (finish v0 v1 r s).diags = s.diags := rfl
@[simp] theorem finish_w (v0 v1 : U32) (r : Result) (s : State) : (finish v0 v1 r s).w = s.w := rfl
@[simp] theorem finish_e (v0 v1 : U32) (r : Result) (s : State) : (finish v0 v1 r s).e = s.e := rfl
@[simp] theorem finish_rsp (v0 v1 : U32) (r : Result) (s : State) : (finish v0 v1 r s).rsp = { status := 0, val0 := v0, val1 := v1, result := r } := rfl
@[simp] theorem finish_input (v0 v1 : U32) (r : Result) (s : State) : (finish v0 v1 r s).input = s.input := rfl
@[simp] theorem finish_host (v0 v1 : U32) (r : Result) (s : State) : (finish v0 v1 r s).host = s.host := rfl
@[simp] theorem finish_config (v0 v1 : U32) (r : Result) (s : State) : (finish v0 v1 r s).config = s.config := rfl
@[simp] theorem finish_freeCount (v0 v1 : U32) (r : Result) (s : State) : (finish v0 v1 r s).freeCount = s.freeCount := rfl

/-! ## refuse -/

@[simp] theorem refuse_crc (c : Code) (s : State) : (refuse c s).crc = s.crc := rfl
@[simp] theorem refuse_pre (c : Code) (s : State) : (refuse c s).pre = s.pre := rfl
@[simp] theorem refuse_cfg (c : Code) (s : State) : (refuse c s).cfg = s.cfg := rfl
@[simp] theorem refuse_cats (c : Code) (s : State) : (refuse c s).cats = s.cats := rfl
@[simp] theorem refuse_out (c : Code) (s : State) : (refuse c s).out = s.out := rfl
@[simp] theorem refuse_outLen (c : Code) (s : State) : (refuse c s).outLen = s.outLen := rfl
@[simp] theorem refuse_outValid (c : Code) (s : State) : (refuse c s).outValid = s.outValid := rfl
@[simp] theorem refuse_status (c : Code) (s : State) : (refuse c s).status = codeByte c := rfl
@[simp] theorem refuse_err (c : Code) (s : State) : (refuse c s).err = s.err := rfl
@[simp] theorem refuse_diags (c : Code) (s : State) : (refuse c s).diags = s.diags := rfl
@[simp] theorem refuse_w (c : Code) (s : State) : (refuse c s).w = s.w := rfl
@[simp] theorem refuse_e (c : Code) (s : State) : (refuse c s).e = s.e := rfl
@[simp] theorem refuse_rsp (c : Code) (s : State) : (refuse c s).rsp = { status := codeByte c, val0 := 0, val1 := 0, result := .none } := rfl
@[simp] theorem refuse_input (c : Code) (s : State) : (refuse c s).input = s.input := rfl
@[simp] theorem refuse_host (c : Code) (s : State) : (refuse c s).host = s.host := rfl
@[simp] theorem refuse_config (c : Code) (s : State) : (refuse c s).config = s.config := rfl
@[simp] theorem refuse_freeCount (c : Code) (s : State) : (refuse c s).freeCount = s.freeCount := rfl

/-! ## recordError -/

@[simp] theorem recordError_crc (c : Code) (t : U16) (p v0 : U32) (s : State) : (recordError c t p v0 s).crc = s.crc := rfl
@[simp] theorem recordError_pre (c : Code) (t : U16) (p v0 : U32) (s : State) : (recordError c t p v0 s).pre = s.pre := rfl
@[simp] theorem recordError_cfg (c : Code) (t : U16) (p v0 : U32) (s : State) : (recordError c t p v0 s).cfg = s.cfg := rfl
@[simp] theorem recordError_cats (c : Code) (t : U16) (p v0 : U32) (s : State) : (recordError c t p v0 s).cats = s.cats := rfl
@[simp] theorem recordError_out (c : Code) (t : U16) (p v0 : U32) (s : State) : (recordError c t p v0 s).out = s.out := rfl
@[simp] theorem recordError_outLen (c : Code) (t : U16) (p v0 : U32) (s : State) : (recordError c t p v0 s).outLen = s.outLen := rfl
@[simp] theorem recordError_outValid (c : Code) (t : U16) (p v0 : U32) (s : State) : (recordError c t p v0 s).outValid = s.outValid := rfl
@[simp] theorem recordError_status (c : Code) (t : U16) (p v0 : U32) (s : State) : (recordError c t p v0 s).status = codeByte c := rfl
@[simp] theorem recordError_err (c : Code) (t : U16) (p v0 : U32) (s : State) : (recordError c t p v0 s).err = { code := codeByte c, secType := t, pos := p } := rfl
@[simp] theorem recordError_diags (c : Code) (t : U16) (p v0 : U32) (s : State) : (recordError c t p v0 s).diags = s.diags := rfl
@[simp] theorem recordError_w (c : Code) (t : U16) (p v0 : U32) (s : State) : (recordError c t p v0 s).w = s.w := rfl
@[simp] theorem recordError_e (c : Code) (t : U16) (p v0 : U32) (s : State) : (recordError c t p v0 s).e = s.e := rfl
@[simp] theorem recordError_rsp (c : Code) (t : U16) (p v0 : U32) (s : State) : (recordError c t p v0 s).rsp = { status := codeByte c, val0 := v0, val1 := 0, result := .none } := rfl
@[simp] theorem recordError_input (c : Code) (t : U16) (p v0 : U32) (s : State) : (recordError c t p v0 s).input = s.input := rfl
@[simp] theorem recordError_host (c : Code) (t : U16) (p v0 : U32) (s : State) : (recordError c t p v0 s).host = s.host := rfl
@[simp] theorem recordError_config (c : Code) (t : U16) (p v0 : U32) (s : State) : (recordError c t p v0 s).config = s.config := rfl
@[simp] theorem recordError_freeCount (c : Code) (t : U16) (p v0 : U32) (s : State) : (recordError c t p v0 s).freeCount = s.freeCount := rfl

/-! ## invalidateOut -/

@[simp] theorem invalidateOut_crc (s : State) : (invalidateOut s).crc = s.crc := rfl
@[simp] theorem invalidateOut_pre (s : State) : (invalidateOut s).pre = s.pre := rfl
@[simp] theorem invalidateOut_cfg (s : State) : (invalidateOut s).cfg = s.cfg := rfl
@[simp] theorem invalidateOut_cats (s : State) : (invalidateOut s).cats = s.cats := rfl
@[simp] theorem invalidateOut_out (s : State) : (invalidateOut s).out = [] := rfl
@[simp] theorem invalidateOut_outLen (s : State) : (invalidateOut s).outLen = Config.openOutLen s.freeCount := rfl
@[simp] theorem invalidateOut_outValid (s : State) : (invalidateOut s).outValid = false := rfl
@[simp] theorem invalidateOut_status (s : State) : (invalidateOut s).status = s.status := rfl
@[simp] theorem invalidateOut_err (s : State) : (invalidateOut s).err = s.err := rfl
@[simp] theorem invalidateOut_diags (s : State) : (invalidateOut s).diags = s.diags := rfl
@[simp] theorem invalidateOut_w (s : State) : (invalidateOut s).w = s.w := rfl
@[simp] theorem invalidateOut_e (s : State) : (invalidateOut s).e = s.e := rfl
@[simp] theorem invalidateOut_rsp (s : State) : (invalidateOut s).rsp = s.rsp := rfl
@[simp] theorem invalidateOut_input (s : State) : (invalidateOut s).input = s.input := rfl
@[simp] theorem invalidateOut_host (s : State) : (invalidateOut s).host = s.host := rfl
@[simp] theorem invalidateOut_config (s : State) : (invalidateOut s).config = s.config := rfl
@[simp] theorem invalidateOut_freeCount (s : State) : (invalidateOut s).freeCount = s.freeCount + 1 := rfl

/-! ## emptyImage -/

@[simp] theorem emptyImage_crc (s : State) : (emptyImage s).crc = s.crc := rfl
@[simp] theorem emptyImage_pre (s : State) : (emptyImage s).pre = Preamble.empty := rfl
@[simp] theorem emptyImage_cfg (s : State) : (emptyImage s).cfg = StdConfig.empty := rfl
@[simp] theorem emptyImage_cats (s : State) : (emptyImage s).cats = [] := rfl
@[simp] theorem emptyImage_out (s : State) : (emptyImage s).out = [] := rfl
@[simp] theorem emptyImage_outLen (s : State) : (emptyImage s).outLen = Config.openOutLen s.freeCount := rfl
@[simp] theorem emptyImage_outValid (s : State) : (emptyImage s).outValid = false := rfl
@[simp] theorem emptyImage_status (s : State) : (emptyImage s).status = s.status := rfl
@[simp] theorem emptyImage_err (s : State) : (emptyImage s).err = s.err := rfl
@[simp] theorem emptyImage_diags (s : State) : (emptyImage s).diags = s.diags := rfl
@[simp] theorem emptyImage_w (s : State) : (emptyImage s).w = s.w := rfl
@[simp] theorem emptyImage_e (s : State) : (emptyImage s).e = s.e := rfl
@[simp] theorem emptyImage_rsp (s : State) : (emptyImage s).rsp = s.rsp := rfl
@[simp] theorem emptyImage_input (s : State) : (emptyImage s).input = s.input := rfl
@[simp] theorem emptyImage_host (s : State) : (emptyImage s).host = s.host := rfl
@[simp] theorem emptyImage_config (s : State) : (emptyImage s).config = s.config := rfl
@[simp] theorem emptyImage_freeCount (s : State) : (emptyImage s).freeCount = s.freeCount + 1 := rfl

/-! ## raiseDecode -/

@[simp] theorem raiseDecode_crc (c : Code) (t : U16) (p : U32) (s : State) : (raiseDecode c t p s).crc = s.crc := rfl
@[simp] theorem raiseDecode_pre (c : Code) (t : U16) (p : U32) (s : State) : (raiseDecode c t p s).pre = Preamble.empty := rfl
@[simp] theorem raiseDecode_cfg (c : Code) (t : U16) (p : U32) (s : State) : (raiseDecode c t p s).cfg = StdConfig.empty := rfl
@[simp] theorem raiseDecode_cats (c : Code) (t : U16) (p : U32) (s : State) : (raiseDecode c t p s).cats = [] := rfl
@[simp] theorem raiseDecode_out (c : Code) (t : U16) (p : U32) (s : State) : (raiseDecode c t p s).out = [] := rfl
@[simp] theorem raiseDecode_outLen (c : Code) (t : U16) (p : U32) (s : State) : (raiseDecode c t p s).outLen = Config.openOutLen s.freeCount := rfl
@[simp] theorem raiseDecode_outValid (c : Code) (t : U16) (p : U32) (s : State) : (raiseDecode c t p s).outValid = false := rfl
@[simp] theorem raiseDecode_status (c : Code) (t : U16) (p : U32) (s : State) : (raiseDecode c t p s).status = codeByte c := rfl
@[simp] theorem raiseDecode_err (c : Code) (t : U16) (p : U32) (s : State) : (raiseDecode c t p s).err = { code := codeByte c, secType := t, pos := p } := rfl
@[simp] theorem raiseDecode_diags (c : Code) (t : U16) (p : U32) (s : State) : (raiseDecode c t p s).diags = [] := rfl
@[simp] theorem raiseDecode_w (c : Code) (t : U16) (p : U32) (s : State) : (raiseDecode c t p s).w = { s.w with pos := p, phase := .failed } := rfl
@[simp] theorem raiseDecode_e (c : Code) (t : U16) (p : U32) (s : State) : (raiseDecode c t p s).e = s.e := rfl
@[simp] theorem raiseDecode_rsp (c : Code) (t : U16) (p : U32) (s : State) : (raiseDecode c t p s).rsp = { status := codeByte c, val0 := p, val1 := 0, result := .none } := rfl
@[simp] theorem raiseDecode_input (c : Code) (t : U16) (p : U32) (s : State) : (raiseDecode c t p s).input = s.input := rfl
@[simp] theorem raiseDecode_host (c : Code) (t : U16) (p : U32) (s : State) : (raiseDecode c t p s).host = s.host := rfl
@[simp] theorem raiseDecode_config (c : Code) (t : U16) (p : U32) (s : State) : (raiseDecode c t p s).config = s.config := rfl
@[simp] theorem raiseDecode_freeCount (c : Code) (t : U16) (p : U32) (s : State) : (raiseDecode c t p s).freeCount = s.freeCount + 1 := rfl

/-! ## raiseEncode -/

@[simp] theorem raiseEncode_crc (c : Code) (t : U16) (p : U32) (s : State) : (raiseEncode c t p s).crc = s.crc := rfl
@[simp] theorem raiseEncode_pre (c : Code) (t : U16) (p : U32) (s : State) : (raiseEncode c t p s).pre = s.pre := rfl
@[simp] theorem raiseEncode_cfg (c : Code) (t : U16) (p : U32) (s : State) : (raiseEncode c t p s).cfg = s.cfg := rfl
@[simp] theorem raiseEncode_cats (c : Code) (t : U16) (p : U32) (s : State) : (raiseEncode c t p s).cats = s.cats := rfl
@[simp] theorem raiseEncode_out (c : Code) (t : U16) (p : U32) (s : State) : (raiseEncode c t p s).out = [] := rfl
@[simp] theorem raiseEncode_outLen (c : Code) (t : U16) (p : U32) (s : State) : (raiseEncode c t p s).outLen = s.outLen := rfl
@[simp] theorem raiseEncode_outValid (c : Code) (t : U16) (p : U32) (s : State) : (raiseEncode c t p s).outValid = false := rfl
@[simp] theorem raiseEncode_status (c : Code) (t : U16) (p : U32) (s : State) : (raiseEncode c t p s).status = codeByte c := rfl
@[simp] theorem raiseEncode_err (c : Code) (t : U16) (p : U32) (s : State) : (raiseEncode c t p s).err = { code := codeByte c, secType := t, pos := p } := rfl
@[simp] theorem raiseEncode_diags (c : Code) (t : U16) (p : U32) (s : State) : (raiseEncode c t p s).diags = s.diags := rfl
@[simp] theorem raiseEncode_w (c : Code) (t : U16) (p : U32) (s : State) : (raiseEncode c t p s).w = s.w := rfl
@[simp] theorem raiseEncode_e (c : Code) (t : U16) (p : U32) (s : State) : (raiseEncode c t p s).e = s.e := rfl
@[simp] theorem raiseEncode_rsp (c : Code) (t : U16) (p : U32) (s : State) : (raiseEncode c t p s).rsp = { status := codeByte c, val0 := 0, val1 := 0, result := .none } := rfl
@[simp] theorem raiseEncode_input (c : Code) (t : U16) (p : U32) (s : State) : (raiseEncode c t p s).input = s.input := rfl
@[simp] theorem raiseEncode_host (c : Code) (t : U16) (p : U32) (s : State) : (raiseEncode c t p s).host = s.host := rfl
@[simp] theorem raiseEncode_config (c : Code) (t : U16) (p : U32) (s : State) : (raiseEncode c t p s).config = s.config := rfl
@[simp] theorem raiseEncode_freeCount (c : Code) (t : U16) (p : U32) (s : State) : (raiseEncode c t p s).freeCount = s.freeCount := rfl

/-! ## memWrite -/

@[simp] theorem memWrite_crc (a : Nat) (b : Bytes) (s : State) : (memWrite a b s).crc = s.crc := rfl
@[simp] theorem memWrite_pre (a : Nat) (b : Bytes) (s : State) : (memWrite a b s).pre = s.pre := rfl
@[simp] theorem memWrite_cfg (a : Nat) (b : Bytes) (s : State) : (memWrite a b s).cfg = s.cfg := rfl
@[simp] theorem memWrite_cats (a : Nat) (b : Bytes) (s : State) : (memWrite a b s).cats = s.cats := rfl
@[simp] theorem memWrite_out (a : Nat) (b : Bytes) (s : State) : (memWrite a b s).out = writeBlock outUnlisted a b s.out := rfl
@[simp] theorem memWrite_outLen (a : Nat) (b : Bytes) (s : State) : (memWrite a b s).outLen = s.outLen := rfl
@[simp] theorem memWrite_outValid (a : Nat) (b : Bytes) (s : State) : (memWrite a b s).outValid = s.outValid := rfl
@[simp] theorem memWrite_status (a : Nat) (b : Bytes) (s : State) : (memWrite a b s).status = s.status := rfl
@[simp] theorem memWrite_err (a : Nat) (b : Bytes) (s : State) : (memWrite a b s).err = s.err := rfl
@[simp] theorem memWrite_diags (a : Nat) (b : Bytes) (s : State) : (memWrite a b s).diags = s.diags := rfl
@[simp] theorem memWrite_w (a : Nat) (b : Bytes) (s : State) : (memWrite a b s).w = s.w := rfl
@[simp] theorem memWrite_e (a : Nat) (b : Bytes) (s : State) : (memWrite a b s).e = s.e := rfl
@[simp] theorem memWrite_rsp (a : Nat) (b : Bytes) (s : State) : (memWrite a b s).rsp = s.rsp := rfl
@[simp] theorem memWrite_input (a : Nat) (b : Bytes) (s : State) : (memWrite a b s).input = s.input := rfl
@[simp] theorem memWrite_host (a : Nat) (b : Bytes) (s : State) : (memWrite a b s).host = s.host := rfl
@[simp] theorem memWrite_config (a : Nat) (b : Bytes) (s : State) : (memWrite a b s).config = s.config := rfl
@[simp] theorem memWrite_freeCount (a : Nat) (b : Bytes) (s : State) : (memWrite a b s).freeCount = s.freeCount := rfl

/-! ## hostWriteIn -/

@[simp] theorem hostWriteIn_crc (a : Nat) (b : Bytes) (s : State) : (hostWriteIn a b s).crc = s.crc := rfl
@[simp] theorem hostWriteIn_pre (a : Nat) (b : Bytes) (s : State) : (hostWriteIn a b s).pre = s.pre := rfl
@[simp] theorem hostWriteIn_cfg (a : Nat) (b : Bytes) (s : State) : (hostWriteIn a b s).cfg = s.cfg := rfl
@[simp] theorem hostWriteIn_cats (a : Nat) (b : Bytes) (s : State) : (hostWriteIn a b s).cats = s.cats := rfl
@[simp] theorem hostWriteIn_out (a : Nat) (b : Bytes) (s : State) : (hostWriteIn a b s).out = s.out := rfl
@[simp] theorem hostWriteIn_outLen (a : Nat) (b : Bytes) (s : State) : (hostWriteIn a b s).outLen = s.outLen := rfl
@[simp] theorem hostWriteIn_outValid (a : Nat) (b : Bytes) (s : State) : (hostWriteIn a b s).outValid = s.outValid := rfl
@[simp] theorem hostWriteIn_status (a : Nat) (b : Bytes) (s : State) : (hostWriteIn a b s).status = s.status := rfl
@[simp] theorem hostWriteIn_err (a : Nat) (b : Bytes) (s : State) : (hostWriteIn a b s).err = s.err := rfl
@[simp] theorem hostWriteIn_diags (a : Nat) (b : Bytes) (s : State) : (hostWriteIn a b s).diags = s.diags := rfl
@[simp] theorem hostWriteIn_w (a : Nat) (b : Bytes) (s : State) : (hostWriteIn a b s).w = s.w := rfl
@[simp] theorem hostWriteIn_e (a : Nat) (b : Bytes) (s : State) : (hostWriteIn a b s).e = s.e := rfl
@[simp] theorem hostWriteIn_rsp (a : Nat) (b : Bytes) (s : State) : (hostWriteIn a b s).rsp = s.rsp := rfl
@[simp] theorem hostWriteIn_input (a : Nat) (b : Bytes) (s : State) : (hostWriteIn a b s).input = writeBlock inUnlisted a b s.input := rfl
@[simp] theorem hostWriteIn_host (a : Nat) (b : Bytes) (s : State) : (hostWriteIn a b s).host = s.host := rfl
@[simp] theorem hostWriteIn_config (a : Nat) (b : Bytes) (s : State) : (hostWriteIn a b s).config = s.config := rfl
@[simp] theorem hostWriteIn_freeCount (a : Nat) (b : Bytes) (s : State) : (hostWriteIn a b s).freeCount = s.freeCount := rfl

/-! ## resetEvent -/

@[simp] theorem resetEvent_crc (s : State) : (resetEvent s).crc = Config.crcSeed := rfl
@[simp] theorem resetEvent_pre (s : State) : (resetEvent s).pre = Preamble.empty := rfl
@[simp] theorem resetEvent_cfg (s : State) : (resetEvent s).cfg = StdConfig.empty := rfl
@[simp] theorem resetEvent_cats (s : State) : (resetEvent s).cats = [] := rfl
@[simp] theorem resetEvent_out (s : State) : (resetEvent s).out = [] := rfl
@[simp] theorem resetEvent_outLen (s : State) : (resetEvent s).outLen = 0 := rfl
@[simp] theorem resetEvent_outValid (s : State) : (resetEvent s).outValid = false := rfl
@[simp] theorem resetEvent_status (s : State) : (resetEvent s).status = 0 := rfl
@[simp] theorem resetEvent_err (s : State) : (resetEvent s).err = ErrRec.zero := rfl
@[simp] theorem resetEvent_diags (s : State) : (resetEvent s).diags = [] := rfl
@[simp] theorem resetEvent_w (s : State) : (resetEvent s).w = Walker.reset := rfl
@[simp] theorem resetEvent_e (s : State) : (resetEvent s).e = Writer.reset := rfl
@[simp] theorem resetEvent_rsp (s : State) : (resetEvent s).rsp = Response.zero := rfl
@[simp] theorem resetEvent_input (s : State) : (resetEvent s).input = s.input := rfl
@[simp] theorem resetEvent_host (s : State) : (resetEvent s).host = s.host := rfl
@[simp] theorem resetEvent_config (s : State) : (resetEvent s).config = s.config := rfl
@[simp] theorem resetEvent_freeCount (s : State) : (resetEvent s).freeCount = s.freeCount := rfl

/-! ## setCrc -/

@[simp] theorem setCrc_crc (c : Byte) (s : State) : (setCrc c s).crc = c := rfl
@[simp] theorem setCrc_pre (c : Byte) (s : State) : (setCrc c s).pre = s.pre := rfl
@[simp] theorem setCrc_cfg (c : Byte) (s : State) : (setCrc c s).cfg = s.cfg := rfl
@[simp] theorem setCrc_cats (c : Byte) (s : State) : (setCrc c s).cats = s.cats := rfl
@[simp] theorem setCrc_out (c : Byte) (s : State) : (setCrc c s).out = s.out := rfl
@[simp] theorem setCrc_outLen (c : Byte) (s : State) : (setCrc c s).outLen = s.outLen := rfl
@[simp] theorem setCrc_outValid (c : Byte) (s : State) : (setCrc c s).outValid = s.outValid := rfl
@[simp] theorem setCrc_status (c : Byte) (s : State) : (setCrc c s).status = 0 := rfl
@[simp] theorem setCrc_err (c : Byte) (s : State) : (setCrc c s).err = s.err := rfl
@[simp] theorem setCrc_diags (c : Byte) (s : State) : (setCrc c s).diags = s.diags := rfl
@[simp] theorem setCrc_w (c : Byte) (s : State) : (setCrc c s).w = s.w := rfl
@[simp] theorem setCrc_e (c : Byte) (s : State) : (setCrc c s).e = s.e := rfl
@[simp] theorem setCrc_rsp (c : Byte) (s : State) : (setCrc c s).rsp = { status := 0, val0 := c.setWidth 32, val1 := 0, result := .none } := rfl
@[simp] theorem setCrc_input (c : Byte) (s : State) : (setCrc c s).input = s.input := rfl
@[simp] theorem setCrc_host (c : Byte) (s : State) : (setCrc c s).host = s.host := rfl
@[simp] theorem setCrc_config (c : Byte) (s : State) : (setCrc c s).config = s.config := rfl
@[simp] theorem setCrc_freeCount (c : Byte) (s : State) : (setCrc c s).freeCount = s.freeCount := rfl

/-! ## catsAppend -/

@[simp] theorem catsAppend_crc (c : Category) (s : State) : (catsAppend c s).crc = s.crc := rfl
@[simp] theorem catsAppend_pre (c : Category) (s : State) : (catsAppend c s).pre = s.pre := rfl
@[simp] theorem catsAppend_cfg (c : Category) (s : State) : (catsAppend c s).cfg = s.cfg := rfl
@[simp] theorem catsAppend_cats (c : Category) (s : State) : (catsAppend c s).cats = s.cats ++ [c] := rfl
@[simp] theorem catsAppend_out (c : Category) (s : State) : (catsAppend c s).out = s.out := rfl
@[simp] theorem catsAppend_outLen (c : Category) (s : State) : (catsAppend c s).outLen = s.outLen := rfl
@[simp] theorem catsAppend_outValid (c : Category) (s : State) : (catsAppend c s).outValid = s.outValid := rfl
@[simp] theorem catsAppend_status (c : Category) (s : State) : (catsAppend c s).status = s.status := rfl
@[simp] theorem catsAppend_err (c : Category) (s : State) : (catsAppend c s).err = s.err := rfl
@[simp] theorem catsAppend_diags (c : Category) (s : State) : (catsAppend c s).diags = s.diags := rfl
@[simp] theorem catsAppend_w (c : Category) (s : State) : (catsAppend c s).w = s.w := rfl
@[simp] theorem catsAppend_e (c : Category) (s : State) : (catsAppend c s).e = s.e := rfl
@[simp] theorem catsAppend_rsp (c : Category) (s : State) : (catsAppend c s).rsp = s.rsp := rfl
@[simp] theorem catsAppend_input (c : Category) (s : State) : (catsAppend c s).input = s.input := rfl
@[simp] theorem catsAppend_host (c : Category) (s : State) : (catsAppend c s).host = s.host := rfl
@[simp] theorem catsAppend_config (c : Category) (s : State) : (catsAppend c s).config = s.config := rfl
@[simp] theorem catsAppend_freeCount (c : Category) (s : State) : (catsAppend c s).freeCount = s.freeCount := rfl

/-! ## enterStdConfig -/

@[simp] theorem enterStdConfig_crc (s : State) : (enterStdConfig s).crc = s.crc := rfl
@[simp] theorem enterStdConfig_pre (s : State) : (enterStdConfig s).pre = s.pre := rfl
@[simp] theorem enterStdConfig_cfg (s : State) : (enterStdConfig s).cfg = s.cfg := rfl
@[simp] theorem enterStdConfig_cats (s : State) : (enterStdConfig s).cats = s.cats := rfl
@[simp] theorem enterStdConfig_out (s : State) : (enterStdConfig s).out = s.out := rfl
@[simp] theorem enterStdConfig_outLen (s : State) : (enterStdConfig s).outLen = s.outLen := rfl
@[simp] theorem enterStdConfig_outValid (s : State) : (enterStdConfig s).outValid = s.outValid := rfl
@[simp] theorem enterStdConfig_status (s : State) : (enterStdConfig s).status = s.status := rfl
@[simp] theorem enterStdConfig_err (s : State) : (enterStdConfig s).err = s.err := rfl
@[simp] theorem enterStdConfig_diags (s : State) : (enterStdConfig s).diags = s.diags := rfl
@[simp] theorem enterStdConfig_w (s : State) : (enterStdConfig s).w = { s.w with pos := 16, phase := .stdConfig } := rfl
@[simp] theorem enterStdConfig_e (s : State) : (enterStdConfig s).e = s.e := rfl
@[simp] theorem enterStdConfig_rsp (s : State) : (enterStdConfig s).rsp = s.rsp := rfl
@[simp] theorem enterStdConfig_input (s : State) : (enterStdConfig s).input = s.input := rfl
@[simp] theorem enterStdConfig_host (s : State) : (enterStdConfig s).host = s.host := rfl
@[simp] theorem enterStdConfig_config (s : State) : (enterStdConfig s).config = s.config := rfl
@[simp] theorem enterStdConfig_freeCount (s : State) : (enterStdConfig s).freeCount = s.freeCount := rfl

/-! ## noteSection -/

@[simp] theorem noteSection_crc (t k : U16) (s : State) : (noteSection t k s).crc = s.crc := rfl
@[simp] theorem noteSection_pre (t k : U16) (s : State) : (noteSection t k s).pre = s.pre := rfl
@[simp] theorem noteSection_cfg (t k : U16) (s : State) : (noteSection t k s).cfg = s.cfg := rfl
@[simp] theorem noteSection_cats (t k : U16) (s : State) : (noteSection t k s).cats = s.cats := rfl
@[simp] theorem noteSection_out (t k : U16) (s : State) : (noteSection t k s).out = s.out := rfl
@[simp] theorem noteSection_outLen (t k : U16) (s : State) : (noteSection t k s).outLen = s.outLen := rfl
@[simp] theorem noteSection_outValid (t k : U16) (s : State) : (noteSection t k s).outValid = s.outValid := rfl
@[simp] theorem noteSection_status (t k : U16) (s : State) : (noteSection t k s).status = s.status := rfl
@[simp] theorem noteSection_err (t k : U16) (s : State) : (noteSection t k s).err = s.err := rfl
@[simp] theorem noteSection_diags (t k : U16) (s : State) : (noteSection t k s).diags = s.diags := rfl
@[simp] theorem noteSection_w (t k : U16) (s : State) : (noteSection t k s).w = { s.w with secType := t, secWords := k } := rfl
@[simp] theorem noteSection_e (t k : U16) (s : State) : (noteSection t k s).e = s.e := rfl
@[simp] theorem noteSection_rsp (t k : U16) (s : State) : (noteSection t k s).rsp = s.rsp := rfl
@[simp] theorem noteSection_input (t k : U16) (s : State) : (noteSection t k s).input = s.input := rfl
@[simp] theorem noteSection_host (t k : U16) (s : State) : (noteSection t k s).host = s.host := rfl
@[simp] theorem noteSection_config (t k : U16) (s : State) : (noteSection t k s).config = s.config := rfl
@[simp] theorem noteSection_freeCount (t k : U16) (s : State) : (noteSection t k s).freeCount = s.freeCount := rfl

/-! ## advance -/

@[simp] theorem advance_crc (sb : Nat) (s : State) : (advance sb s).crc = s.crc := rfl
@[simp] theorem advance_pre (sb : Nat) (s : State) : (advance sb s).pre = s.pre := rfl
@[simp] theorem advance_cfg (sb : Nat) (s : State) : (advance sb s).cfg = s.cfg := rfl
@[simp] theorem advance_cats (sb : Nat) (s : State) : (advance sb s).cats = s.cats := rfl
@[simp] theorem advance_out (sb : Nat) (s : State) : (advance sb s).out = s.out := rfl
@[simp] theorem advance_outLen (sb : Nat) (s : State) : (advance sb s).outLen = s.outLen := rfl
@[simp] theorem advance_outValid (sb : Nat) (s : State) : (advance sb s).outValid = s.outValid := rfl
@[simp] theorem advance_status (sb : Nat) (s : State) : (advance sb s).status = s.status := rfl
@[simp] theorem advance_err (sb : Nat) (s : State) : (advance sb s).err = s.err := rfl
@[simp] theorem advance_diags (sb : Nat) (s : State) : (advance sb s).diags = s.diags := rfl
@[simp] theorem advance_w (sb : Nat) (s : State) : (advance sb s).w = { s.w with pos := s.w.pos + BitVec.ofNat 32 (4 + sb) } := rfl
@[simp] theorem advance_e (sb : Nat) (s : State) : (advance sb s).e = s.e := rfl
@[simp] theorem advance_rsp (sb : Nat) (s : State) : (advance sb s).rsp = s.rsp := rfl
@[simp] theorem advance_input (sb : Nat) (s : State) : (advance sb s).input = s.input := rfl
@[simp] theorem advance_host (sb : Nat) (s : State) : (advance sb s).host = s.host := rfl
@[simp] theorem advance_config (sb : Nat) (s : State) : (advance sb s).config = s.config := rfl
@[simp] theorem advance_freeCount (sb : Nat) (s : State) : (advance sb s).freeCount = s.freeCount := rfl

/-! ## startDecode -/

@[simp] theorem startDecode_crc (n : U32) (s : State) : (startDecode n s).crc = s.crc := rfl
@[simp] theorem startDecode_pre (n : U32) (s : State) : (startDecode n s).pre = Preamble.empty := rfl
@[simp] theorem startDecode_cfg (n : U32) (s : State) : (startDecode n s).cfg = StdConfig.empty := rfl
@[simp] theorem startDecode_cats (n : U32) (s : State) : (startDecode n s).cats = [] := rfl
@[simp] theorem startDecode_out (n : U32) (s : State) : (startDecode n s).out = [] := rfl
@[simp] theorem startDecode_outLen (n : U32) (s : State) : (startDecode n s).outLen = Config.openOutLen s.freeCount := rfl
@[simp] theorem startDecode_outValid (n : U32) (s : State) : (startDecode n s).outValid = false := rfl
@[simp] theorem startDecode_status (n : U32) (s : State) : (startDecode n s).status = s.status := rfl
@[simp] theorem startDecode_err (n : U32) (s : State) : (startDecode n s).err = ErrRec.zero := rfl
@[simp] theorem startDecode_diags (n : U32) (s : State) : (startDecode n s).diags = [] := rfl
@[simp] theorem startDecode_w (n : U32) (s : State) : (startDecode n s).w = { s.w with pos := 0, phase := .preamble, limit := n } := rfl
@[simp] theorem startDecode_e (n : U32) (s : State) : (startDecode n s).e = s.e := rfl
@[simp] theorem startDecode_rsp (n : U32) (s : State) : (startDecode n s).rsp = s.rsp := rfl
@[simp] theorem startDecode_input (n : U32) (s : State) : (startDecode n s).input = s.input := rfl
@[simp] theorem startDecode_host (n : U32) (s : State) : (startDecode n s).host = s.host := rfl
@[simp] theorem startDecode_config (n : U32) (s : State) : (startDecode n s).config = s.config := rfl
@[simp] theorem startDecode_freeCount (n : U32) (s : State) : (startDecode n s).freeCount = s.freeCount + 1 := rfl

/-! ## startEncode -/

@[simp] theorem startEncode_crc (o : BitVec 3) (s : State) : (startEncode o s).crc = s.crc := rfl
@[simp] theorem startEncode_pre (o : BitVec 3) (s : State) : (startEncode o s).pre = s.pre := rfl
@[simp] theorem startEncode_cfg (o : BitVec 3) (s : State) : (startEncode o s).cfg = s.cfg := rfl
@[simp] theorem startEncode_cats (o : BitVec 3) (s : State) : (startEncode o s).cats = s.cats := rfl
@[simp] theorem startEncode_out (o : BitVec 3) (s : State) : (startEncode o s).out = [] := rfl
@[simp] theorem startEncode_outLen (o : BitVec 3) (s : State) : (startEncode o s).outLen = Config.openOutLen s.freeCount := rfl
@[simp] theorem startEncode_outValid (o : BitVec 3) (s : State) : (startEncode o s).outValid = false := rfl
@[simp] theorem startEncode_status (o : BitVec 3) (s : State) : (startEncode o s).status = s.status := rfl
@[simp] theorem startEncode_err (o : BitVec 3) (s : State) : (startEncode o s).err = ErrRec.zero := rfl
@[simp] theorem startEncode_diags (o : BitVec 3) (s : State) : (startEncode o s).diags = s.diags := rfl
@[simp] theorem startEncode_w (o : BitVec 3) (s : State) : (startEncode o s).w = s.w := rfl
@[simp] theorem startEncode_e (o : BitVec 3) (s : State) : (startEncode o s).e = { s.e with wpos := 0, opts := o } := rfl
@[simp] theorem startEncode_rsp (o : BitVec 3) (s : State) : (startEncode o s).rsp = s.rsp := rfl
@[simp] theorem startEncode_input (o : BitVec 3) (s : State) : (startEncode o s).input = s.input := rfl
@[simp] theorem startEncode_host (o : BitVec 3) (s : State) : (startEncode o s).host = s.host := rfl
@[simp] theorem startEncode_config (o : BitVec 3) (s : State) : (startEncode o s).config = s.config := rfl
@[simp] theorem startEncode_freeCount (o : BitVec 3) (s : State) : (startEncode o s).freeCount = s.freeCount + 1 := rfl

/-! ## writeUnit -/

@[simp] theorem writeUnit_crc (b : Bytes) (s : State) : (writeUnit b s).crc = s.crc := rfl
@[simp] theorem writeUnit_pre (b : Bytes) (s : State) : (writeUnit b s).pre = s.pre := rfl
@[simp] theorem writeUnit_cfg (b : Bytes) (s : State) : (writeUnit b s).cfg = s.cfg := rfl
@[simp] theorem writeUnit_cats (b : Bytes) (s : State) : (writeUnit b s).cats = s.cats := rfl
@[simp] theorem writeUnit_out (b : Bytes) (s : State) : (writeUnit b s).out = writeBlock outUnlisted s.e.wpos.toNat b s.out := rfl
@[simp] theorem writeUnit_outLen (b : Bytes) (s : State) : (writeUnit b s).outLen = s.outLen := rfl
@[simp] theorem writeUnit_outValid (b : Bytes) (s : State) : (writeUnit b s).outValid = s.outValid := rfl
@[simp] theorem writeUnit_status (b : Bytes) (s : State) : (writeUnit b s).status = s.status := rfl
@[simp] theorem writeUnit_err (b : Bytes) (s : State) : (writeUnit b s).err = s.err := rfl
@[simp] theorem writeUnit_diags (b : Bytes) (s : State) : (writeUnit b s).diags = s.diags := rfl
@[simp] theorem writeUnit_w (b : Bytes) (s : State) : (writeUnit b s).w = s.w := rfl
@[simp] theorem writeUnit_e (b : Bytes) (s : State) : (writeUnit b s).e = { s.e with wpos := s.e.wpos + BitVec.ofNat 32 b.length } := rfl
@[simp] theorem writeUnit_rsp (b : Bytes) (s : State) : (writeUnit b s).rsp = s.rsp := rfl
@[simp] theorem writeUnit_input (b : Bytes) (s : State) : (writeUnit b s).input = s.input := rfl
@[simp] theorem writeUnit_host (b : Bytes) (s : State) : (writeUnit b s).host = s.host := rfl
@[simp] theorem writeUnit_config (b : Bytes) (s : State) : (writeUnit b s).config = s.config := rfl
@[simp] theorem writeUnit_freeCount (b : Bytes) (s : State) : (writeUnit b s).freeCount = s.freeCount := rfl

/-! ## finishEncode -/

@[simp] theorem finishEncode_crc (s : State) : (finishEncode s).crc = s.crc := rfl
@[simp] theorem finishEncode_pre (s : State) : (finishEncode s).pre = s.pre := rfl
@[simp] theorem finishEncode_cfg (s : State) : (finishEncode s).cfg = s.cfg := rfl
@[simp] theorem finishEncode_cats (s : State) : (finishEncode s).cats = s.cats := rfl
@[simp] theorem finishEncode_out (s : State) : (finishEncode s).out = s.out := rfl
@[simp] theorem finishEncode_outLen (s : State) : (finishEncode s).outLen = s.e.wpos := rfl
@[simp] theorem finishEncode_outValid (s : State) : (finishEncode s).outValid = true := rfl
@[simp] theorem finishEncode_status (s : State) : (finishEncode s).status = 0 := rfl
@[simp] theorem finishEncode_err (s : State) : (finishEncode s).err = s.err := rfl
@[simp] theorem finishEncode_diags (s : State) : (finishEncode s).diags = s.diags := rfl
@[simp] theorem finishEncode_w (s : State) : (finishEncode s).w = s.w := rfl
@[simp] theorem finishEncode_e (s : State) : (finishEncode s).e = s.e := rfl
@[simp] theorem finishEncode_rsp (s : State) : (finishEncode s).rsp = { status := 0, val0 := s.e.wpos, val1 := 0, result := .none } := rfl
@[simp] theorem finishEncode_input (s : State) : (finishEncode s).input = s.input := rfl
@[simp] theorem finishEncode_host (s : State) : (finishEncode s).host = s.host := rfl
@[simp] theorem finishEncode_config (s : State) : (finishEncode s).config = s.config := rfl
@[simp] theorem finishEncode_freeCount (s : State) : (finishEncode s).freeCount = s.freeCount := rfl

end Sys2Proof.Machine
end

