-- ==== Sys2Proof/Laws/Ops.lean ====
section
/-! SUPPORT. For each shared operation, once, everything it can do: what callers cite instead of unfolding it. -/

namespace Sys2Proof.Machine

/-! ## Operand tests -/

theorem fits_iff {v : U32} {n : Nat} : fits v n = true ↔ v.toNat < 2 ^ n := by simp [fits]

theorem inRange_iff {s : State} {a len : U32} :
    inRange s a len = true ↔ a.toNat + len.toNat ≤ s.config.inCap.toNat := by simp [inRange]

theorem atCapacity_iff {cap : Option Nat} {n : Nat} : atCapacity cap n = true ↔ cap = some n := by simp [atCapacity]

/-- `IN[a..a+len)` as the bytes at its addresses. -/
theorem inOperand_eq_map (s : State) (a len : U32) :
    inOperand s a len = (List.range len.toNat).map (fun k => inByte s.input (a.toNat + k)) :=
  readBlock_eq_map _ _ _

@[simp] theorem memRead_length (s : State) (a n : Nat) : (memRead s a n).length = n := readBlock_length _ _ _

/-! ## The walker's operations -/

/-- A diagnostic is recorded, or DIAG is full and DECODE ends. -/
theorem withDiag_cases (c : Code) (t : U16) (p : U32) (k : State → State) (s : State) :
    (s.config.diagCap = some s.diags.length ∧ withDiag c t p k s = raiseDecode .resourceExhausted t p s) ∨
    (s.config.diagCap ≠ some s.diags.length ∧
      withDiag c t p k s = k { s with diags := s.diags ++ [{ code := codeByte c, secType := t, pos := p }] }) := by
  unfold withDiag
  by_cases h : atCapacity s.config.diagCap s.diags.length = true
  · exact .inl ⟨atCapacity_iff.mp h, by simp [h]⟩
  · exact .inr ⟨fun e => h (atCapacity_iff.mpr e), by simp [h]⟩

/-- A section of an implemented type: malformed, or CATS is full, or a node at the tail and the cursor behind it. -/
theorem storeSection_cases (t : U16) (v : Option Payload) (p : Bytes) (s : State) :
    (v = none ∧ storeSection t v p s =
      raiseDecode .malformedCategory t s.w.pos (noteSection t (BitVec.ofNat 16 (p.length / 2)) s)) ∨
    (∃ x, v = some x ∧ s.config.catCap = some s.cats.length ∧ storeSection t v p s =
      raiseDecode .resourceExhausted t s.w.pos (noteSection t (BitVec.ofNat 16 (p.length / 2)) s)) ∨
    (∃ x, v = some x ∧ s.config.catCap ≠ some s.cats.length ∧ storeSection t v p s =
      advance p.length (catsAppend { type := t, sizeBytes := p.length, payload := x }
        (noteSection t (BitVec.ofNat 16 (p.length / 2)) s))) := by
  cases v with
  | none => exact .inl ⟨rfl, rfl⟩
  | some x =>
    by_cases h : s.config.catCap = some s.cats.length
    · exact .inr (.inl ⟨x, rfl, h, by simp [storeSection, atCapacity, h]⟩)
    · exact .inr (.inr ⟨x, rfl, h, by simp [storeSection, atCapacity, h]⟩)

/-- A skipped section: DIAG is full, or a diagnostic and the cursor behind it. -/
theorem skipSection_cases (c : Code) (t : U16) (p : Bytes) (s : State) :
    (s.config.diagCap = some s.diags.length ∧ skipSection c t p s =
      raiseDecode .resourceExhausted t s.w.pos (noteSection t (BitVec.ofNat 16 (p.length / 2)) s)) ∨
    (s.config.diagCap ≠ some s.diags.length ∧ skipSection c t p s =
      advance p.length { noteSection t (BitVec.ofNat 16 (p.length / 2)) s with
        diags := s.diags ++ [{ code := codeByte c, secType := t, pos := s.w.pos }] }) :=
  withDiag_cases c t s.w.pos (advance p.length) (noteSection t (BitVec.ofNat 16 (p.length / 2)) s)

/-- A failed fetch refuses a command or ends DECODE; nothing else. -/
theorem fetchFailed_cases (e : DecodeError) (s : State) :
    fetchFailed e s = refuse .badCommand s ∨
      ∃ c t p r, fetchFailed e s = raiseDecode c t p r ∧ (r = s ∨ ∃ k, r = noteSection t k s) := by
  cases e with
  | badCommand => exact .inl rfl
  | headerShort => exact .inr ⟨_, _, _, s, rfl, .inl rfl⟩
  | configShort => exact .inr ⟨_, _, _, s, rfl, .inl rfl⟩
  | noTypeWord => exact .inr ⟨_, _, _, s, rfl, .inl rfl⟩
  | noSizeWord t => exact .inr ⟨_, _, _, s, rfl, .inl rfl⟩
  | payloadShort t w => exact .inr ⟨_, _, _, _, rfl, .inr ⟨w, rfl⟩⟩

/-- What every step of a walk keeps, the walk keeps. -/
theorem runWalk_keeps (P : State → Prop)
    (hstep : ∀ s t, P s → walking s.w.phase = true → walkStep s = .next t → P t)
    {k : Nat} {s t : State} (hs : P s) (h : runWalk k s = .next t) : P t := by
  induction k generalizing s with
  | zero => cases h; exact hs
  | succ k ih =>
    simp only [runWalk] at h
    split at h
    · rename_i hw
      cases hq : walkStep s with
      | next u => rw [hq] at h; exact ih (hstep s u hs hw hq) h
      | fault f => rw [hq] at h; cases h
      | refused r => rw [hq] at h; cases h
    · cases h; exact hs

/-! ## The writer's operations -/

/-- A byte of OUT after one unit was written at the cursor. -/
theorem outByte_writeUnit (b : Bytes) (s : State) (x : Nat) :
    outByte (writeUnit b s).out x =
      if s.e.wpos.toNat ≤ x ∧ x < s.e.wpos.toNat + b.length then b[x - s.e.wpos.toNat]? else outByte s.out x :=
  outByte_writeBlock _ _ _ _

/-- The cursor behind a unit that ends inside the 32-bit space. -/
theorem writeUnit_wpos_toNat {b : Bytes} {s : State} (h : s.e.wpos.toNat + b.length < 2 ^ 32) :
    (writeUnit b s).e.wpos.toNat = s.e.wpos.toNat + b.length := by
  simp only [writeUnit_e, BitVec.toNat_add, BitVec.toNat_ofNat]
  omega

/-- One node of CATS: suppressed, or one of the three errors, or its section written at the cursor. -/
theorem categoryStep_cases (cap : U32) (k : Nat) (c : Category) (s : State) :
    ∃ u, u = { s with e := { s.e with idx := k } } ∧
      (suppressed s.e.opts c.type = true ∧ categoryStep cap k c s = .ok u ∨
        suppressed s.e.opts c.type = false ∧
          (c.type = 20 ∧ categoryStep cap k c s = .error (raiseEncode .unimplementedCategory 20 s.e.wpos u) ∨
            c.type ≠ 20 ∧ Config.maxPayload < (encodePayload c.payload).length ∧
              categoryStep cap k c s = .error (raiseEncode .sectionTooLarge c.type s.e.wpos u) ∨
            c.type ≠ 20 ∧ (encodePayload c.payload).length ≤ Config.maxPayload ∧
              cap.toNat < s.e.wpos.toNat + (sectionBytes c.type (encodePayload c.payload)).length ∧
              categoryStep cap k c s = .error (raiseEncode .bufferTooSmall c.type s.e.wpos u) ∨
            c.type ≠ 20 ∧ (encodePayload c.payload).length ≤ Config.maxPayload ∧
              s.e.wpos.toNat + (sectionBytes c.type (encodePayload c.payload)).length ≤ cap.toNat ∧
              categoryStep cap k c s = .ok (writeUnit (sectionBytes c.type (encodePayload c.payload)) u))) := by
  refine ⟨_, rfl, ?_⟩
  unfold categoryStep
  by_cases h1 : suppressed s.e.opts c.type = true
  · exact .inl ⟨h1, by simp [h1]⟩
  · refine .inr ⟨by simpa using h1, ?_⟩
    by_cases h2 : c.type = 20#16
    · exact .inl ⟨h2, by rw [if_neg h1, if_pos h2]⟩
    · refine .inr ?_
      by_cases h3 : Config.maxPayload < (encodePayload c.payload).length
      · exact .inl ⟨h2, h3, by rw [if_neg h1, if_neg h2, if_pos h3]⟩
      · refine .inr ?_
        by_cases h4 : cap.toNat < s.e.wpos.toNat + (sectionBytes c.type (encodePayload c.payload)).length
        · exact .inl ⟨h2, by omega, h4, by rw [if_neg h1, if_neg h2, if_neg h3, if_pos (by simpa [overflows] using h4)]⟩
        · exact .inr ⟨h2, by omega, by omega,
            by rw [if_neg h1, if_neg h2, if_neg h3, if_neg (by simpa [overflows] using h4)]⟩

end Sys2Proof.Machine
end

