-- ==== Sys2Proof/Laws/PerInstr.lean ====
section
/-! SUPPORT. Statements about every instruction, one lemma a constructor. -/

/-- Every item of an image takes an even number of bytes, at least two, so every descriptor starts at an even offset
(20_memory.md R69, 30_encoding.md R84, R85); a host command takes none. -/
def Sys2Proof.Laws.EvenLength.Statement (i : Sys2Proof.Instr) : Prop :=
  i.wf = true → i.imageLength % 2 = 0 ∧ ((∃ c, Sys2Proof.encode i = .command c) ∨ 2 ≤ i.imageLength)

namespace Sys2Proof.Laws.EvenLength

open Sys2Proof Sys2Proof.Machine

/-- A section with a payload that has a size in words. -/
theorem of_section {i : Instr} {t : U16} {p : Bytes} (hi : Sys2Proof.encode i = .item .descriptor (sectionBytes t p))
    (hp : i.wf = true → payloadWf p = true) : Statement i := by
  intro h
  have he : p.length % 2 = 0 := by
    have := hp h
    simp only [payloadWf, Bool.and_eq_true, beq_iff_eq] at this
    exact this.1
  have hl : i.imageLength = 4 + p.length := by
    simp only [Instr.imageLength, hi, sectionBytes, List.length_append, le16_length]
  exact ⟨by omega, .inr (by omega)⟩

/-- A host command. -/
theorem of_command {i : Instr} {c : Command} (hi : Sys2Proof.encode i = .command c) : Statement i := fun _ =>
  ⟨by simp only [Instr.imageLength, hi], .inl ⟨c, hi⟩⟩

theorem preamble (p : Bytes) : Statement (.preamble p) := by
  intro h
  have : p.length = 16 := by simpa [Instr.wf, Config.preBytes] using h
  exact ⟨by simp [Instr.imageLength, Sys2Proof.encode, this], .inr (by simp [Instr.imageLength, Sys2Proof.encode, this])⟩

theorem stdconfig (c : Bytes) : Statement (.stdconfig c) := by
  intro h
  have : c.length = 112 := by simpa [Instr.wf, Config.cfgBytes] using h
  exact ⟨by simp [Instr.imageLength, Sys2Proof.encode, this], .inr (by simp [Instr.imageLength, Sys2Proof.encode, this])⟩

theorem strings (p : Bytes) : Statement (.strings p) := of_section rfl id

theorem datatypes (p : Bytes) : Statement (.datatypes p) := of_section rfl id

theorem general (p : Bytes) : Statement (.general p) := of_section rfl id

theorem fmmu (p : Bytes) : Statement (.fmmu p) := of_section rfl id

theorem syncm (p : Bytes) : Statement (.syncm p) := of_section rfl id

theorem txpdo (p : Bytes) : Statement (.txpdo p) := of_section rfl id

theorem rxpdo (p : Bytes) : Statement (.rxpdo p) := of_section rfl id

theorem dclock (p : Bytes) : Statement (.dclock p) := of_section rfl id

theorem endMark : Statement .endMark := fun _ => ⟨rfl, .inr (Nat.le_refl 2)⟩

theorem unknown (t : U16) (p : Bytes) : Statement (.unknown t p) :=
  of_section rfl fun h => by
    simp only [Instr.wf, Bool.and_eq_true] at h
    exact h.2

theorem crcInit : Statement .crcInit := of_command rfl

theorem crcSet (v : U32) : Statement (.crcSet v) := of_command rfl

theorem crcBit (d : U32) : Statement (.crcBit d) := of_command rfl

theorem crcUpdate (b : U32) : Statement (.crcUpdate b) := of_command rfl

theorem crcCompute (a len : U32) : Statement (.crcCompute a len) := of_command rfl

theorem decode (n : U32) : Statement (.decode n) := of_command rfl

theorem encode (cap opts : U32) : Statement (.encode cap opts) := of_command rfl

theorem release : Statement .release := of_command rfl

theorem append (a len : U32) : Statement (.append a len) := of_command rfl

theorem find (t : U32) : Statement (.find t) := of_command rfl

theorem removeLast : Statement .removeLast := of_command rfl

theorem sort : Statement .sort := of_command rfl

theorem findNeighbor (i t : U32) : Statement (.findNeighbor i t) := of_command rfl

theorem rdCat (i : U32) : Statement (.rdCat i) := of_command rfl

theorem strAdd (i a len : U32) : Statement (.strAdd i a len) := of_command rfl

theorem strById (i k : U32) : Statement (.strById i k) := of_command rfl

theorem strFind (i a len : U32) : Statement (.strFind i a len) := of_command rfl

theorem rdReg (r : U32) : Statement (.rdReg r) := of_command rfl

theorem wrReg (r v : U32) : Statement (.wrReg r v) := of_command rfl

theorem rdDiag (k : U32) : Statement (.rdDiag k) := of_command rfl

end Sys2Proof.Laws.EvenLength
end

