-- ==== Sys2Proof/Laws/Step.lean ====
section
/-! SUPPORT. The laws of the step: which instructions a fetch can give, that the DECODE command walks by the machine's
own steps, and what placing a word leaves alone. -/

namespace Sys2Proof.Machine

/-- Executed inside DECODE, a wire instruction has its one meaning. -/
theorem execWire_eq_exec {i : Instr} (h : isHostCommand i = false) (s : State) : execWire i s = exec i s := by
  cases i <;> first | rfl | simp [isHostCommand, encode, commandOf] at h

theorem sectionInstr_not_command (t : U16) (p : Bytes) : isHostCommand (sectionInstr t p) = false := by
  unfold sectionInstr
  split <;> rfl

theorem decodeSection_not_command {b : Bytes} {i : Instr} (h : decodeSection b = .ok i) : isHostCommand i = false := by
  unfold decodeSection at h
  split at h
  · cases h
  · split at h
    · cases h; rfl
    · split at h
      · cases h
      · split at h
        · cases h
        · cases h; exact sectionInstr_not_command _ _

/-- A fetch from an image never gives a host command. -/
theorem fetchItem_not_command {s : State} {i : Instr} (h : fetchItem s = .ok i) : isHostCommand i = false := by
  unfold fetchItem at h
  split at h
  · simp only [decodeItem] at h; split at h <;> cases h; rfl
  · simp only [decodeItem] at h; split at h <;> cases h; rfl
  all_goals exact decodeSection_not_command h

/-- While a walk is in progress, the machine's step is the walker's step. -/
theorem step_walking {s : State} (h : walking s.w.phase = true) : step s = walkStep s := by
  unfold step walkStep
  rw [if_pos h]
  cases hf : fetchItem s with
  | error e => rfl
  | ok i => exact (execWire_eq_exec (fetchItem_not_command hf) s).symm

/-- A wire instruction answers a next state. -/
theorem execWire_next (i : Instr) (s : State) : ∃ t, execWire i s = .next t := by
  cases i <;> first | exact ⟨_, rfl⟩ | (simp only [execWire, execPreamble]; split <;> exact ⟨_, rfl⟩)

theorem walkStep_next (s : State) : ∃ t, walkStep s = .next t := by
  unfold walkStep
  cases fetchItem s with
  | error e => exact ⟨_, rfl⟩
  | ok i => exact execWire_next i s

theorem runWalk_next (k : Nat) (s : State) : ∃ t, runWalk k s = .next t := by
  induction k generalizing s with
  | zero => exact ⟨s, rfl⟩
  | succ k ih =>
    simp only [runWalk]
    split
    · obtain ⟨u, hu⟩ := walkStep_next s
      rw [hu]
      exact ih u
    · exact ⟨s, rfl⟩

/-- Placing an encoding for the next step leaves the block's own registers, lists and buffer alone. -/
theorem placeEncoding_keeps (x : Encoding) (s : State) :
    (placeEncoding x s).crc = s.crc ∧ (placeEncoding x s).pre = s.pre ∧ (placeEncoding x s).cfg = s.cfg ∧
      (placeEncoding x s).cats = s.cats ∧ (placeEncoding x s).out = s.out ∧ (placeEncoding x s).err = s.err ∧
      (placeEncoding x s).diags = s.diags ∧ (placeEncoding x s).status = s.status ∧ (placeEncoding x s).e = s.e := by
  cases x with
  | command c => exact ⟨rfl, rfl, rfl, rfl, rfl, rfl, rfl, rfl, rfl⟩
  | item slot b => cases slot <;> exact ⟨rfl, rfl, rfl, rfl, rfl, rfl, rfl, rfl, rfl⟩

end Sys2Proof.Machine
end

