-- ==== Sys2Proof/Tests/Slice0.lean ====
section
/-! SUPPORT. Tests: ill-formed terms, words written out from the spec's encodings, one step per instruction with the
values of 95_test_vectors.md, and for every statement with hypotheses a concrete case that meets them. -/

namespace Sys2Proof.Tests

open Sys2Proof Sys2Proof.Machine

-- One theorem after the other: side by side their threads' stacks alone outgrow the check's memory bound.
set_option Elab.async false

/-! ## Helpers -/

/-- The state an outcome goes on with. -/
def ran (o : Out) : Option State :=
  match o with
  | .next s => some s
  | _ => none

/-- Status, val0 and val1 of the response. -/
def answer (o : Out) : Option (Byte × U32 × U32) := (ran o).map fun s => (s.rsp.status, s.rsp.val0, s.rsp.val1)

/-- The error record. -/
def error (o : Out) : Option (Byte × U16 × U32) := (ran o).map fun s => (s.err.code, s.err.secType, s.err.pos)

/-- The reset state with the bytes `b` in IN from address 0. -/
def withIn (b : Bytes) : State := { State.reset with input := cellsOf inUnlisted 0 b }

/-- The reset state with a registry. -/
def withCats (cs : List Category) : State := { State.reset with cats := cs }

/-- The reset state of the smallest instance: no room for a node or a diagnostic, 16 bytes of IN, 130 of OUT. -/
def smallest : State := State.resetWith { inCap := 16, outCapMax := 130, catCap := some 0, diagCap := some 0 }

/-- A walk at a descriptor boundary at 128 with the bytes `b` left. -/
def atBoundary (b : Bytes) : State := placeItem 128 .inSection b State.reset

/-- The 16 preamble bytes of V30. -/
def pre30 : Bytes := [0x08, 0x0C, 0x00, 0x6E, 0x64, 0x00, 0x00, 0x00, 0x01, 0x00, 0x00, 0x00, 0x00, 0x00, 0x82, 0x00]

/-- The 112 standard-config bytes of V30. -/
def cfg30 : Bytes :=
  [0xD2, 0x22, 0x00, 0x00, 0x01, 0x02, 0x00, 0x00, 0x02, 0x00, 0x00, 0x0A, 0x00, 0x00, 0x00, 0x00] ++
  [0x00, 0x00, 0x00, 0x00, 0x00, 0x00, 0x00, 0x00, 0x00, 0x10, 0x80, 0x00, 0x80, 0x10, 0x80, 0x00] ++
  [0x00, 0x10, 0x80, 0x00, 0x80, 0x10, 0x80, 0x00, 0x0C, 0x00] ++ zeros 66 ++ [0x0F, 0x00, 0x01, 0x00]

/-- V30. -/
def v30 : Bytes := pre30 ++ cfg30 ++ [0xFF, 0xFF]

/-- The strings of V31. -/
def strs31 : List Bytes := [[0x53, 0x4F, 0x4D, 0x41, 0x4E, 0x45, 0x54], [0x44, 0x72, 0x69, 0x76, 0x65]]

/-- The Strings payload of V31 (43_category_codecs.md R200). -/
def pay10 : Bytes := [0x02, 0x07, 0x53, 0x4F, 0x4D, 0x41, 0x4E, 0x45, 0x54, 0x05, 0x44, 0x72, 0x69, 0x76, 0x65, 0x00]

/-- The General payload of V31. -/
def pay30 : Bytes := [0x02, 0x00, 0x01, 0x01, 0x00, 0x2F, 0x01, 0x00, 0x00, 0x00, 0x00, 0x09, 0x38, 0xFF, 0x00, 0x00,
  0x11, 0x00, 0x12, 0x00] ++ zeros 12

/-- The first SyncManager record of V31. -/
def pay41 : Bytes := [0x00, 0x10, 0x80, 0x00, 0x26, 0x00, 0x01, 0x01]

/-- The TxPDO payload of V31. -/
def pay50 : Bytes := [0x00, 0x1A, 0x01, 0x03, 0x00, 0x00, 0x00, 0x00, 0x41, 0x60, 0x00, 0x00, 0x06, 0x10, 0x00, 0x00]

/-- The RxPDO payload of V31. -/
def pay51 : Bytes := [0x00, 0x16, 0x02, 0x02, 0x00, 0x00, 0x00, 0x00, 0x40, 0x60, 0x00, 0x00, 0x06, 0x10, 0x00, 0x00,
  0x7A, 0x60, 0x00, 0x00, 0x04, 0x20, 0x00, 0x00]

/-- The DClock payload of V31. -/
def pay60 : Bytes := [0x00, 0x03, 0xE8, 0x03] ++ zeros 28 ++ [0x40, 0x42, 0x0F, 0x00, 0x00, 0x00, 0x00, 0x00] ++
  [0x01, 0x02] ++ zeros 12 ++ [0x44, 0x33, 0x22, 0x11] ++ zeros 20 ++ [0xD4, 0xC3, 0xB2, 0xA1] ++ zeros 4

/-- The nodes of V31's table that are used below. -/
def node10 : Category := { type := 10, sizeBytes := 16, payload := .strings strs31 }

def node40 : Category := { type := 40, sizeBytes := 4, payload := .fmmu [.outputs, .inputs, .smStatus] }

def node20 : Category := { type := 20, sizeBytes := 0, payload := .datatypes }

def pdo51 : Pdo := { dir := .rx, index := 0x1600, sm := 2, dcSync := 0, nameIdx := 0, flags := 0, entries := [] }

def node51 : Category := { type := 51, sizeBytes := 8, payload := .pdo pdo51 }

def node50 : Category := { type := 50, sizeBytes := 8, payload := .pdo { pdo51 with dir := .tx } }

/-! ## Ill-formed terms, one for each check (30_encoding.md R81 to R84, R93) -/

theorem test_wf_preamble_needs_16_bytes : (Instr.preamble (zeros 15)).wf = false := by decide
theorem test_wf_stdconfig_needs_112_bytes : (Instr.stdconfig (zeros 113)).wf = false := by decide
theorem test_wf_strings_even : (Instr.strings [0]).wf = false := by decide
theorem test_wf_datatypes_even : (Instr.datatypes [0]).wf = false := by decide
theorem test_wf_general_even : (Instr.general (zeros 33)).wf = false := by decide
theorem test_wf_fmmu_even : (Instr.fmmu [1, 2, 3]).wf = false := by decide
theorem test_wf_syncm_even : (Instr.syncm (zeros 7)).wf = false := by decide
theorem test_wf_txpdo_even : (Instr.txpdo (zeros 9)).wf = false := by decide
theorem test_wf_rxpdo_even : (Instr.rxpdo (zeros 9)).wf = false := by decide
theorem test_wf_dclock_even : (Instr.dclock (zeros 87)).wf = false := by decide
theorem test_wf_unknown_even : (Instr.unknown 0x0800 [0]).wf = false := by decide
theorem test_wf_unknown_is_not_known : (Instr.unknown 0x28 []).wf = false := by decide
theorem test_wf_unknown_is_not_end : (Instr.unknown 0xFFFF []).wf = false := by decide
theorem test_wf_payload_limit (n : Nat) (h : 131070 < n) : payloadWf (zeros n) = false := by
  have : ¬ n ≤ 131070 := by omega
  simp [payloadWf, zeros, Config.maxPayload, this]

/-! ## Words written out from the encodings (30_encoding.md R81 to R91, R100) -/

theorem test_word_preamble : decode (.item .preamble (pre30 ++ [0xAA])) = .ok (.preamble pre30) := rfl
theorem test_word_stdconfig : decode (.item .stdConfig (cfg30 ++ [0xAA])) = .ok (.stdconfig cfg30) := rfl
theorem test_word_strings :
    decode (.item .descriptor [0x0A, 0x00, 0x02, 0x00, 0x01, 0x01, 0x41, 0x00]) = .ok (.strings [1, 1, 0x41, 0]) := rfl
theorem test_word_datatypes :
    decode (.item .descriptor [0x14, 0x00, 0x03, 0x00, 1, 2, 3, 4, 5, 6]) = .ok (.datatypes [1, 2, 3, 4, 5, 6]) := rfl
theorem test_word_general :
    decode (.item .descriptor ([0x1E, 0x00, 0x10, 0x00] ++ pay30 ++ [0xFF, 0xFF])) = .ok (.general pay30) := rfl
theorem test_word_fmmu :
    decode (.item .descriptor [0x28, 0x00, 0x02, 0x00, 1, 2, 3, 0, 0x29]) = .ok (.fmmu [1, 2, 3, 0]) := rfl
theorem test_word_syncm :
    decode (.item .descriptor ([0x29, 0x00, 0x04, 0x00] ++ pay41)) = .ok (.syncm pay41) := rfl
theorem test_word_txpdo :
    decode (.item .descriptor ([0x32, 0x00, 0x08, 0x00] ++ pay50)) = .ok (.txpdo pay50) := rfl
theorem test_word_rxpdo :
    decode (.item .descriptor ([0x33, 0x00, 0x0C, 0x00] ++ pay51)) = .ok (.rxpdo pay51) := rfl
theorem test_word_dclock :
    decode (.item .descriptor ([0x3C, 0x00, 0x2B, 0x00] ++ pay60 ++ [0xFF, 0xFF])) = .ok (.dclock pay60) := rfl
theorem test_word_end : decode (.item .descriptor [0xFF, 0xFF, 0x00, 0x00]) = .ok .endMark := rfl
theorem test_word_unknown :
    decode (.item .descriptor [0x00, 0x08, 0x01, 0x00, 0xDE, 0xAD]) = .ok (.unknown 0x0800 [0xDE, 0xAD]) := rfl
theorem test_word_bit15_is_unknown :
    decode (.item .descriptor [0x0A, 0x80, 0x00, 0x00]) = .ok (.unknown 0x800A []) := rfl
theorem test_word_crc_init : decode (.command ⟨0x01, 9, 9, 9⟩) = .ok .crcInit := rfl
theorem test_word_crc_set : decode (.command ⟨0x02, 0x12, 0, 0⟩) = .ok (.crcSet 0x12) := rfl
theorem test_word_crc_bit : decode (.command ⟨0x03, 1, 0, 0⟩) = .ok (.crcBit 1) := rfl
theorem test_word_crc_update : decode (.command ⟨0x04, 0xA5, 0, 0⟩) = .ok (.crcUpdate 0xA5) := rfl
theorem test_word_crc_compute : decode (.command ⟨0x05, 3, 14, 0⟩) = .ok (.crcCompute 3 14) := rfl
theorem test_word_decode : decode (.command ⟨0x10, 130, 0, 0⟩) = .ok (.decode 130) := rfl
theorem test_word_encode : decode (.command ⟨0x11, 2048, 5, 0⟩) = .ok (.encode 2048 5) := rfl
theorem test_word_release : decode (.command ⟨0x12, 0, 0, 0⟩) = .ok .release := rfl
theorem test_word_append : decode (.command ⟨0x20, 0x10, 12, 0⟩) = .ok (.append 0x10 12) := rfl
theorem test_word_find : decode (.command ⟨0x21, 41, 0, 0⟩) = .ok (.find 41) := rfl
theorem test_word_remove_last : decode (.command ⟨0x22, 0, 0, 0⟩) = .ok .removeLast := rfl
theorem test_word_sort : decode (.command ⟨0x23, 0, 0, 0⟩) = .ok .sort := rfl
theorem test_word_find_neighbor : decode (.command ⟨0x24, 2, 10, 0⟩) = .ok (.findNeighbor 2 10) := rfl
theorem test_word_rd_cat : decode (.command ⟨0x25, 6, 0, 0⟩) = .ok (.rdCat 6) := rfl
theorem test_word_str_add : decode (.command ⟨0x28, 1, 16, 7⟩) = .ok (.strAdd 1 16 7) := rfl
theorem test_word_str_by_id : decode (.command ⟨0x29, 1, 2, 0⟩) = .ok (.strById 1 2) := rfl
theorem test_word_str_find : decode (.command ⟨0x2A, 1, 23, 5⟩) = .ok (.strFind 1 23 5) := rfl
theorem test_word_rd_reg : decode (.command ⟨0x30, 0x0C, 0, 0⟩) = .ok (.rdReg 0x0C) := rfl
theorem test_word_wr_reg : decode (.command ⟨0x31, 0x10, 0x0C08, 0⟩) = .ok (.wrReg 0x10 0x0C08) := rfl
theorem test_word_rd_diag : decode (.command ⟨0x32, 1, 0, 0⟩) = .ok (.rdDiag 1) := rfl

/-! ## One step per instruction, with the values of 95_test_vectors.md -/

/-- V16 to V20. -/
theorem test_crc_vectors : crcUpdate 0xFF 0x00 = 0xF3 ∧ crcUpdate 0 0 = 0 ∧ crcUpdate 0 1 = 0x07 ∧
    crcUpdate 0 0x80 = 0x89 ∧ crcUpdate 0xFF 0xFF = 0 ∧ crcUpdate 0 0xA5 = 0x72 := by decide
/-- V21 to V27. -/
theorem test_compute_vectors : crcCompute [] = 0xFF ∧ crcCompute [0] = 0xF3 ∧ crcCompute [1] = 0xF4 ∧
    crcCompute [0xFF] = 0 ∧ crcCompute [0x31, 0x32, 0x33, 0x34, 0x35, 0x36, 0x37, 0x38, 0x39] = 0xFB ∧
    crcCompute (zeros 14) = 0x30 ∧ crcFold 0xFF (zeros 16) = 0xF9 := by decide +kernel
/-- V29. -/
theorem test_bitstep_vectors : crcBitstep 0 true = 0x07 ∧ crcBitstep 0x80 true = 0 ∧ crcBitstep 0x80 false = 0x07 ∧
    crcBitstep 0x7F false = 0xFE := by decide
/-- 40_crc8.md R125. -/
theorem test_crc_init : (ran (exec .crcInit { State.reset with crc := 0x12 })).map (·.crc) = some 0xFF := by decide
/-- Section 2.1: CRC_SET 0x100 is refused and leaves CRC unchanged. -/
theorem test_crc_set_refused : answer (exec (.crcSet 0x100) State.reset) = some (0x31, 0, 0) ∧
    (ran (exec (.crcSet 0x100) State.reset)).map (·.crc) = some 0xFF := by decide
/-- 40_crc8.md R127. -/
theorem test_crc_bit : answer (exec (.crcBit 0) State.reset) = some (0, 0xF9, 0) ∧
    answer (exec (.crcBit 2) State.reset) = some (0x31, 0, 0) := by decide
/-- 40_crc8.md R128. -/
theorem test_crc_update : answer (exec (.crcUpdate 0) State.reset) = some (0, 0xF3, 0) := by decide
/-- V25: from IN, whatever CRC holds. -/
theorem test_crc_compute :
    answer (exec (.crcCompute 1 9) { withIn [0xAA, 0x31, 0x32, 0x33, 0x34, 0x35, 0x36, 0x37, 0x38, 0x39] with crc := 7 })
      = some (0, 0xFB, 0) := by decide +kernel
/-- 41_header_codecs.md R141. -/
theorem test_preamble : (ran (exec (.preamble pre30) State.reset)).map (fun s => (s.pre, s.diags, s.w.pos)) =
    some ({ pdiCtrl := 0x0C08, pdiConf := 0x6E00, syncImpulse := 0x0064, pdiConf2 := 0, stationAlias := 1, rsvd0 := 0,
            rsvd1 := 0, rsvd2 := 0, rsvd3 := 0, checksum := 0x82, csumValid := .valid }, [], 16) := by decide +kernel
/-- V40b: byte 15 is 1, so the residue is 0x07. -/
theorem test_preamble_invalid :
    (ran (exec (.preamble (pre30.dropLast ++ [1])) State.reset)).map (fun s => (s.pre.csumValid, s.pre.checksum, s.diags))
      = some (.invalid, 0x82, [{ code := 0x10, secType := 0, pos := 0 }]) := by decide +kernel
/-- 41_header_codecs.md R151. -/
theorem test_stdconfig : (ran (exec (.stdconfig cfg30) State.reset)).map (·.cfg) =
    some { vendorId := 0x22D2, productId := 0x0201, revisionId := 0x0A000002, serial := 0, bsRxAddr := 0x1000,
           bsRxSize := 0x80, bsTxAddr := 0x1080, bsTxSize := 0x80, stdRxAddr := 0x1000, stdRxSize := 0x80,
           stdTxAddr := 0x1080, stdTxSize := 0x80, mbxProto := 0x0C, eepromCode := 0x0F, version := 1 } := by decide +kernel
/-- 43_category_codecs.md R200. -/
theorem test_strings : (ran (exec (.strings pay10) (atBoundary []))).map (fun s => (s.cats, s.w.pos)) =
    some ([node10], 148) := by decide +kernel
/-- V70f. -/
theorem test_strings_surplus : decodeStrings [2, 1, 0x41, 0, 0xFF, 0xFF] = some (.strings [[0x41], []]) := by decide
/-- V8. -/
theorem test_datatypes : (ran (exec (.datatypes [1, 2, 3, 4, 5, 6]) (atBoundary []))).map
    (fun s => (s.cats, s.diags, s.w.pos)) = some ([], [{ code := 0x12, secType := 0x14, pos := 128 }], 138) := by decide
/-- V31, node 1. -/
theorem test_general : decodeGeneral pay30 = some (.general
    { groupIdx := 2, imageIdx := 0, orderIdx := 1, nameIdx := 1, coeSdo := true, coeSdoInfo := true, coePdoAssign := true,
      coePdoConfig := true, coeUploadAtStart := false, coeSdoComplete := true, foeEnabled := true, eoeEnabled := false,
      safeop := true, notlrw := false, mboxDll := false, identAlStatus := true, identPhysMem := false,
      currentEbus := BitVec.ofInt 16 (-200), port0 := 1, port1 := 1, port2 := 0, port3 := 0, physAddr := 0x12 }) ∧
    (decodeGeneral pay30).map encodePayload = some pay30 := by decide +kernel
/-- V71a. -/
theorem test_general_ports : (decodeGeneral (zeros 12 ++ [0, 0x80, 0, 0, 0x21, 0x43, 0x34, 0x12] ++ zeros 12)).map
    (fun v => match v with | .general g => (g.currentEbus.toInt, g.port0, g.port1, g.port2, g.port3, g.physAddr) | _ => (0, 0, 0, 0, 0, 0))
      = some (-32768, 1, 2, 3, 4, 0x1234) := by decide +kernel
/-- V72a, V72c. -/
theorem test_fmmu : decodeFmmu [1, 0, 2, 0xFF] = some (.fmmu [.outputs, .inputs]) ∧ encodeFmmu [.outputs] = [1, 0] := by decide
/-- V38g. -/
theorem test_fmmu_malformed : error (exec (.fmmu [1, 4, 3, 0]) (atBoundary [])) = some (0x04, 0x28, 128) := by decide
/-- V73a, V73b. -/
theorem test_syncm : decodeSyncM [0x00, 0x10, 0x80, 0x00, 0x26, 0x55, 0x01, 0x01] =
    some (.syncM [{ physAddr := 0x1000, length := 0x80, control := 0x26, status := 0x55, enable := 1, type := .mboxOut }]) ∧
    encodeSyncM [{ physAddr := 0x1000, length := 0x80, control := 0x26, status := 0x55, enable := 1, type := .mboxOut }] =
      pay41 := by decide +kernel
/-- V38f. -/
theorem test_syncm_malformed :
    error (exec (.syncm [0x00, 0x10, 0x80, 0x00, 0x26, 0x00, 0x01, 0x05]) (atBoundary [])) = some (0x04, 0x29, 128) := by decide
/-- V31, node 4. -/
def pdo50 : Pdo :=
  { dir := .tx, index := 0x1A00, sm := 3, dcSync := 0, nameIdx := 0, flags := 0,
    entries := [{ index := 0x6041, subindex := 0, strIdx := 0, dataType := 6, bitLen := 16, flags := 0 }] }

/-- V75a: the last 8 bytes are surplus. -/
theorem test_txpdo : (ran (exec (.txpdo (pay50 ++ zeros 8)) (atBoundary []))).map (·.cats) =
    some [{ type := 50, sizeBytes := 24, payload := .pdo pdo50 }] := by decide +kernel
/-- V75b. -/
theorem test_txpdo_malformed : decodePdo .tx ([0x00, 0x1A, 0x02] ++ pay50.drop 3) = none := by decide
/-- V11. -/
theorem test_rxpdo : (decodePdo .rx pay51).map encodePayload = some pay51 ∧
    sectionBytes 51 pay51 = [0x33, 0x00, 0x0C, 0x00] ++ pay51 := by decide +kernel
/-- V75c. -/
theorem test_rxpdo_empty : encodePdo pdo51 = [0x00, 0x16, 0x00, 0x02, 0x00, 0x00, 0x00, 0x00] := by decide
/-- V31, node 6. -/
theorem test_dclock : (decodeDClock pay60).map encodePayload = some pay60 ∧
    (decodeDClock pay60).map (fun v => match v with
      | .dclock d => (d.syncPulse, d.sync0Cycle, d.latch0PosEdge, d.latch1NegEdge, d.latch0PosVal, d.latch1NegVal)
      | _ => (0, 0, false, false, 0, 0)) = some (1000, 1000000, true, true, 0x11223344, 0xA1B2C3D4) := by decide +kernel
/-- V38i. -/
theorem test_dclock_malformed : decodeDClock (zeros 84) = none := by decide
/-- V30's end. -/
theorem test_end : (ran (exec .endMark (atBoundary []))).map (fun s => (s.w.phase, s.w.pos, s.rsp.val0)) =
    some (.terminal, 130, 130) := by decide
/-- 43_category_codecs.md R206. -/
theorem test_unknown : (ran (exec (.unknown 0x0800 [0xDE, 0xAD]) (atBoundary []))).map (fun s => (s.diags, s.w.pos)) =
    some ([{ code := 0x11, secType := 0x0800, pos := 128 }], 134) := by decide
/-- P1: the 130-byte image. -/
theorem test_decode_v30 : (ran (exec (.decode 130) (withIn v30))).map
    (fun s => (s.rsp.status, s.rsp.val0, s.rsp.val1, s.pre.checksum, s.cfg.vendorId)) =
      some (0, 130, 0, 0x82, 0x22D2) := by decide +kernel
/-- V35: 16 payload bytes declared, 2 left. -/
theorem test_decode_v35 : (ran (exec (.decode 134) (withIn (pre30 ++ cfg30 ++ [0x0A, 0, 8, 0, 2, 7])))).map
    (fun s => (s.err, s.w.phase, s.rsp.val0, s.cfg)) =
      some ({ code := 0x02, secType := 0x0A, pos := 128 }, .failed, 128, StdConfig.empty) := by decide +kernel
/-- V45: after WR_REG 0x16, 0x30. -/
theorem test_encode_v45 :
    (ran (exec (.encode 130 0) { State.reset with pre := { Preamble.empty with checksum := 0x30 } })).map
      (fun s => (s.outLen, s.outValid, (List.range 131).map (outByte s.out))) =
        some (130, true, (zeros 14 ++ [0x30] ++ zeros 113 ++ [0xFF, 0xFF]).map some ++ [none]) := by decide +kernel
/-- V44; and each skip bit cuts out its own type (45_writer.md R295): 130 bytes, and 12, 12 and 8 for one TxPDO, RxPDO
and FMMU node. -/
theorem test_encode_v44 : error (exec (.encode 128 0) State.reset) = some (0x21, 0, 14) ∧
    error (exec (.encode 127 0) State.reset) = some (0x22, 0, 0) ∧
    ([0, 1, 2, 4, 3].map fun opts => (ran (exec (.encode 200 opts)
      { withCats [node50, { node51 with sizeBytes := 16, payload := .pdo { pdo51 with entries := pdo50.entries } }, node40]
        with pre := { Preamble.empty with checksum := 0x30 } })).map (·.outLen.toNat)) =
          [some 170, some 158, some 150, some 170, some 138] := by decide +kernel
/-- 42_registry.md R180. -/
theorem test_release : (ran (exec .release { withCats [node10] with outValid := true })).map
    (fun s => (s.cats, s.outValid, s.status)) = some ([], false, 0) := by decide
/-- 42_registry.md R170. -/
theorem test_append : (ran (exec (.append 0 8) (withIn [0x28, 0, 2, 0, 1, 2, 3, 0]))).map (fun s => (s.cats, s.rsp.val0)) =
    some ([node40], 0) := by decide +kernel
/-- V50. -/
theorem test_append_refused : answer (exec (.append 0 6) (withIn [0x28, 0, 2, 0, 1, 2, 3, 0])) = some (0x31, 0, 0) ∧
    answer (exec (.append 0 4) (withIn [0xFF, 0xFF, 0, 0])) = some (0x31, 0, 0) := by decide +kernel
/-- 42_registry.md R173. -/
theorem test_find : answer (exec (.find 51) (withCats [node10, node51, node40, node51])) = some (0, 1, 1) ∧
    answer (exec (.find 20) (withCats [node10])) = some (0, 0, 0) := by decide
/-- 42_registry.md R174. -/
theorem test_remove_last : (ran (exec .removeLast (withCats [node10, node40]))).map (·.cats) = some [node10] ∧
    answer (exec .removeLast State.reset) = some (0x32, 0, 0) := by decide
/-- V52: equal types keep their order. -/
theorem test_sort :
    (ran (exec .sort (withCats [node51, node10, node50, { node51 with sizeBytes := 10 }, { node50 with sizeBytes := 10 }]))).map (·.cats)
      = some [node10, node50, { node50 with sizeBytes := 10 }, node51, { node51 with sizeBytes := 10 }] := by decide +kernel
/-- V53. -/
theorem test_find_neighbor : answer (exec (.findNeighbor 1 10) (withCats [node10, node51])) = some (0, 1, 0) ∧
    answer (exec (.findNeighbor 2 10) (withCats [node10, node51])) = some (0x36, 0, 0) := by decide
/-- 42_registry.md R181. -/
theorem test_rd_cat : (ran (exec (.rdCat 0) (withCats [node40]))).map (·.rsp) =
    some { status := 0, val0 := 40, val1 := 4, result := .payload (.fmmu [.outputs, .inputs, .smStatus]) } := by decide
/-- V60: `size_bytes` stays the one of the descriptor. -/
theorem test_str_add : (ran (exec (.strAdd 0 1 2) { withIn [9, 0x41, 0x42] with cats := [node10] })).map
    (fun s => (s.cats, s.rsp.val0)) = some ([{ node10 with payload := .strings (strs31 ++ [[0x41, 0x42]]) }], 3) := by decide +kernel
/-- 42_registry.md R182. -/
theorem test_str_add_refused : answer (exec (.strAdd 0 16 256) (withCats [node10])) = some (0x31, 0, 0) ∧
    answer (exec (.strAdd 0 0 0) (withCats [node40])) = some (0x35, 0, 0) := by decide +kernel
/-- 42_registry.md R184. -/
theorem test_str_by_id : (ran (exec (.strById 0 2) (withCats [node10]))).map (·.rsp) =
    some { status := 0, val0 := 1, val1 := 5, result := .bytes [0x44, 0x72, 0x69, 0x76, 0x65] } ∧
    answer (exec (.strById 0 0) (withCats [node10])) = some (0, 0, 0) ∧
    answer (exec (.strById 0 3) (withCats [node10])) = some (0, 0, 0) := by decide
/-- 42_registry.md R185. -/
theorem test_str_find :
    answer (exec (.strFind 0 0 5) { withIn [0x44, 0x72, 0x69, 0x76, 0x65] with cats := [node10] }) = some (0, 2, 0) ∧
    answer (exec (.strFind 0 0 5) { withIn [0x64, 0x72, 0x69, 0x76, 0x65] with cats := [node10] }) = some (0, 0, 0) := by
  decide +kernel
/-- Section 2.8. -/
theorem test_rd_reg : answer (exec (.rdReg 0x0C) { State.reset with cfg := { StdConfig.empty with eepromCode := 15 } })
      = some (0, 0x800, 0) ∧
    answer (exec (.rdReg 0x15) { State.reset with pre := { Preamble.empty with rsvd0 := 1, rsvd3 := 4 } }) = some (0, 0x04000001, 0) := by
  decide
/-- Section 2.8. -/
theorem test_wr_reg : (ran (exec (.wrReg 0x10 0x0C08) State.reset)).map (·.pre) = some { Preamble.empty with pdiCtrl := 0x0C08 } ∧
    answer (exec (.wrReg 0x10 0x10000) State.reset) = some (0x31, 0, 0) := by decide
/-- 60_exceptions.md R333. -/
theorem test_rd_diag :
    answer (exec (.rdDiag 0) { State.reset with diags := [{ code := 0x11, secType := 0x0800, pos := 228 }] }) =
      some (0, 0x08000011, 228) := by decide
/-- P4: a failed fetch inside a walk, and the machine's own step. -/
theorem test_step_missing_terminator : error (step (atBoundary [0xFF])) = some (0x03, 0, 128) := by decide +kernel
/-- Section 2.8: code 0x40. -/
theorem test_step_bad_command :
    answer (step { State.reset with host := [.command ⟨0x40, 0, 0, 0⟩] }) = some (0x30, 0, 0) := by decide
/-- A word is placed where the next step fetches it. -/
theorem test_fetch_word : decodeTableWord 8 0x01 = some .crcInit ∧ decodeTableWord 16 0xFFFF = some .endMark ∧
    decodeTableWord 16 0x28 = some (.fmmu []) ∧
    (ran (step (State.reset.withFetchWord 16 0x28))).map (·.cats) = some [{ type := 40, sizeBytes := 0, payload := .fmmu [] }] ∧
    (ran (step ({ State.reset with crc := 0 }.withFetchWord 8 0x01))).map (·.crc) = some 0xFF := by decide +kernel

/-! ## For every statement with hypotheses: states and operands that meet them, clause by clause -/

/-- The preamble of V45: all zero but for its checksum. -/
def pre45 : Preamble := { Preamble.empty with checksum := 0x30 }

/-- A walk at the start of phase `ph` over the first `n` bytes of an all-zero IN. -/
def walkAt (ph : Phase) (n : U32) : State := { State.reset with w := { Walker.reset with phase := ph, limit := n } }

/-- A walk at a boundary of an instance that has no room left. -/
def fullBoundary : State := { atBoundary [] with config := smallest.config }

/-- The types that `opts` suppresses, by the table of 30_encoding.md R100 and 45_writer.md R295. -/
def skipOf (opts : U32) (t : U16) : Bool :=
  (t.toNat == 50 && opts.getLsbD 0) || (t.toNat == 51 && opts.getLsbD 1) || (t.toNat == 60 && opts.getLsbD 2)

/-- `skipOf opts` is the predicate the statements about ENCODE ask for, for every `opts`. -/
theorem skipOf_iff (opts : U32) (t : U16) :
    skipOf opts t = true ↔ t.toNat = 50 ∧ opts.getLsbD 0 = true ∨ t.toNat = 51 ∧ opts.getLsbD 1 = true ∨
      t.toNat = 60 ∧ opts.getLsbD 2 = true := by
  simp [skipOf, or_assoc]

theorem witness_ResetEventRestoresResetValues :
    accepting { State.reset with host := [.rst] } = true ∧ { State.reset with host := [.rst] }.host = .rst :: [] := by decide

theorem witness_StepRunsTheDecodedInstruction :
    (accepting { State.reset with host := [.command ⟨0x01, 0, 0, 0⟩] } = true ∧
      decode (.command ⟨0x01, 0, 0, 0⟩) = .ok .crcInit) ∧
    ((walkAt .preamble 16).w.phase = .preamble ∧
      decode (.item .preamble (memRead (walkAt .preamble 16) 0 (walkAt .preamble 16).w.limit.toNat)) = .ok (.preamble (zeros 16))) ∧
    ((walkAt .stdConfig 128).w.phase = .stdConfig ∧
      decode (.item .stdConfig (memRead (walkAt .stdConfig 128) 16 ((walkAt .stdConfig 128).w.limit.toNat - 16))) =
        .ok (.stdconfig (zeros 112))) ∧
    ((atBoundary [0xFF, 0xFF]).w.phase = .inSection ∧
      decode (.item .descriptor (memRead (atBoundary [0xFF, 0xFF]) (atBoundary [0xFF, 0xFF]).w.pos.toNat
        ((atBoundary [0xFF, 0xFF]).w.limit.toNat - (atBoundary [0xFF, 0xFF]).w.pos.toNat))) = .ok .endMark) ∧
    (accepting State.reset = true ∧ State.reset.host = []) :=
  ⟨⟨rfl, rfl⟩, ⟨rfl, rfl⟩, ⟨rfl, rfl⟩, ⟨rfl, rfl⟩, rfl, rfl⟩

theorem witness_UnknownCommandCodeIsRefused : ∀ code ∈ ([0x00, 0x06, 0x13, 0x26, 0x2B, 0x33, 0x40, 0xFF] : List Byte),
    accepting { State.reset with host := [.command ⟨code, 0, 0, 0⟩] } = true ∧
      code.toNat ∉ [0x01, 0x02, 0x03, 0x04, 0x05, 0x10, 0x11, 0x12, 0x20, 0x21, 0x22, 0x23, 0x24, 0x25, 0x28, 0x29,
        0x2A, 0x30, 0x31, 0x32] := by decide

theorem witness_OnlyAnOutsideHostWriteStops :
    (accepting { State.reset with host := [.writeIn 0xFFFFFFFF [1]] } = true ∧
      (0xFFFFFFFF#32).toNat + ([1] : Bytes).length ≤ 2 ^ 32) ∧
    (∃ f, step { State.reset with host := [.writeIn 0xFFFFFFFF [1, 2]] } = .fault f) :=
  ⟨by decide, .hostWriteOutsideIn, rfl⟩

theorem witness_DecodeOfEncodeIsTheInstruction : (Instr.fmmu [1, 2, 3, 0]).wf = true ∧
    encode (.fmmu [1, 2, 3, 0]) = .item .descriptor [0x28, 0, 2, 0, 1, 2, 3, 0] ∧ (Instr.unknown 0x0800 []).wf = true ∧
    Instr.endMark.wf = true ∧ (Instr.crcSet 0xFFFFFFFF).wf = true := by decide

theorem witness_DecodedInstructionsAreWellFormed :
    decode (.item .descriptor [0x14, 0, 1, 0, 7, 8, 9]) = .ok (.datatypes [7, 8]) ∧
    decode (.command ⟨0x12, 1, 2, 3⟩) = .ok .release ∧ decode (.command ⟨0x11, 1, 2, 3⟩) = .ok (.encode 1 2) ∧
    decode (.command ⟨0x28, 1, 2, 3⟩) = .ok (.strAdd 1 2 3) := ⟨rfl, rfl, rfl, rfl⟩

theorem witness_TypeWordSelectsTheRow : ([] : Bytes).length = 2 * (0#16).toNat ∧
    ([1, 2] : Bytes).length = 2 * (1#16).toNat ∧ (zeros 8).length = 2 * (4#16).toNat := by decide

theorem witness_CrcSetLoadsItsOperand : (0xFF#32).toNat ≤ 0xFF ∧ 0xFF < (0x100#32).toNat := by decide

theorem witness_CrcBitFollowsTheGates : (1#32).toNat ≤ 1 ∧ 1 < (2#32).toNat := by decide

theorem witness_CrcUpdateFoldsOneByte : (0xFF#32).toNat ≤ 0xFF ∧ 0xFF < (0x100#32).toNat := by decide

theorem witness_CrcComputeFoldsTheRange :
    (3#32).toNat + (13#32).toNat ≤ smallest.config.inCap.toNat ∧ smallest.config.inCap.toNat < (3#32).toNat + (14#32).toNat ∧
      State.reset.config.inCap.toNat < (0xFFFFFFFF#32).toNat + (1#32).toNat := by decide

theorem witness_CrcResidueLaws : crcUpdate 0 0xA5 = crcUpdate 0 0xA5 ∧
    crcFold 0xFF (zeros 14 ++ [0x00, 0x90]) = 0 ∧ (0x90 : Byte) = crcUpdate (crcCompute (zeros 14)) 0 := by decide +kernel

theorem witness_PreambleLoadsTheRegisters :
    (pre30.length = 16 ∧ crcFold 0xFF pre30 = 0) ∧
    ((zeros 16).length = 16 ∧ crcFold 0xFF (zeros 16) ≠ 0 ∧
      State.reset.config.diagCap ≠ some State.reset.diags.length) ∧
    ((walkAt .preamble 15).w.phase = .preamble ∧ (walkAt .preamble 15).w.limit.toNat < 16) ∧
    ((walkAt .preamble 16).w.phase = .preamble ∧ 16 ≤ (walkAt .preamble 16).w.limit.toNat) := by decide +kernel

theorem witness_PreambleIsSelfCertifying : pre30.length = 16 ∧ rd8 pre30 15 = 0 ∧ checksumFlag pre30 = .valid ∧
    checksumFlag (zeros 16) = .invalid := by decide +kernel

theorem witness_StdConfigLoadsTheRegisters : cfg30.length = 112 ∧
    ((walkAt .stdConfig 127).w.phase = .stdConfig ∧ (walkAt .stdConfig 127).w.limit.toNat < 128) ∧
    ((walkAt .stdConfig 128).w.phase = .stdConfig ∧ 128 ≤ (walkAt .stdConfig 128).w.limit.toNat) := by decide

theorem witness_EepromSizeScaling : 0x7F < 0x80 ∧ eepromCode 0x7F = none ∧ eepromCode 0x80 = some 0 ∧
    eepromCode 2100 = some 15 ∧ eepromBytes 0xFFFF = 8388608 := by decide

theorem witness_RdRegAnswersTheRegisterMap :
    { State.reset with outValid := true }.outValid = true ∧ State.reset.outValid = false ∧
    (0x0E ≤ (0x0E#32).toNat ∧ (0x0E#32).toNat ≤ 0x0F) ∧ (0x17 ≤ (0x1F#32).toNat ∧ (0x1F#32).toNat ≤ 0x1F) ∧
    0x2F ≤ (0x2F#32).toNat ∧ 0x2F ≤ (0xFFFFFFFF#32).toNat := by decide

/-- Widths 8, 16 and 32 at their largest values; a value too wide; a read-only and an unassigned number. -/
theorem witness_WrRegWritesOneRegister (rw : List (U32 × Nat)) (h : rw =
    [(0x00, 8), (0x10, 16), (0x11, 16), (0x12, 16), (0x13, 16), (0x14, 16), (0x15, 32), (0x16, 8), (0x20, 32), (0x21, 32),
     (0x22, 32), (0x23, 32), (0x24, 16), (0x25, 16), (0x26, 16), (0x27, 16), (0x28, 16), (0x29, 16), (0x2A, 16),
     (0x2B, 16), (0x2C, 16), (0x2D, 16), (0x2E, 16)]) :
    ((0x00#32, 8) ∈ rw ∧ (0xFF#32).toNat < 2 ^ 8) ∧ ((0x10#32, 16) ∈ rw ∧ (0xFFFF#32).toNat < 2 ^ 16) ∧
    ((0x15#32, 32) ∈ rw ∧ (0xFFFFFFFF#32).toNat < 2 ^ 32) ∧ 2 ^ 8 ≤ (0x100#32).toNat ∧
    (0x0C#32 ≠ 0x10#32 ∧ 0x0C#32 ≠ 0x01#32 ∧ ¬ (0x10#32 = 0x2D#32 ∧ 0x0C#32 = 0x0C#32) ∧
      ∃ u, exec (.rdReg 0x0C) State.reset = .next (finish u 0 .none State.reset)) ∧
    0x01#32 ∉ rw.map (·.1) ∧ 0x0E#32 ∉ rw.map (·.1) := by
  subst h
  exact ⟨by decide, by decide, by decide, by decide, ⟨by decide, by decide, by decide, _, rfl⟩, by decide, by decide⟩

theorem witness_StringsDecodeReadsCountedStrings : decodeStrings pay10 = some (.strings strs31) ∧
    decodeStrings [0, 7] = some (.strings []) := by decide +kernel

theorem witness_FmmuDecodeDropsUnused :
    (∀ c ∈ ([1, 0, 2, 0xFF, 3] : Bytes), c ∈ ([0x00, 0x01, 0x02, 0x03, 0xFF] : Bytes)) ∧
    (∃ c ∈ ([1, 4, 3, 0] : Bytes), c ∉ ([0x00, 0x01, 0x02, 0x03, 0xFF] : Bytes)) := by decide

theorem witness_SyncMDecodeReadsEveryRecord :
    (pay41.length % 8 = 0 ∧ ∀ j < pay41.length / 8, (rd8 pay41 (8 * j + 7)).toNat ≤ 4) ∧
    (pay41.dropLast.length % 8 ≠ 0) ∧
    (0 < (zeros 7 ++ [5]).length / 8 ∧ 4 < (rd8 (zeros 7 ++ [5]) (8 * 0 + 7)).toNat) := by decide

theorem witness_PdoDecodeReadsTheEntryCount :
    (8 ≤ pay50.length ∧ 8 + 8 * (rd8 pay50 2).toNat ≤ pay50.length) ∧ (zeros 7).length < 8 ∧
    (8 ≤ (pay50.take 15).length ∧ (pay50.take 15).length < 8 + 8 * (rd8 (pay50.take 15) 2).toNat) := by decide

theorem witness_GeneralDecodeReadsTheLayout : 32 ≤ pay30.length ∧ (zeros 31).length < 32 := by decide

theorem witness_DClockDecodeReadsTheLayout : 86 ≤ pay60.length ∧ (zeros 85).length < 86 := by decide

theorem witness_CodecRoundTrip :
    (payloadBounded (.strings strs31) = true ∧ Payload.strings strs31 ≠ .datatypes) ∧
    (payloadBounded (.strings (List.replicate 255 [])) = true ∧ payloadBounded (.pdo pdo51) = true) := by decide +kernel

theorem witness_ReservedBytesAreWrittenAsZero :
    (∀ k ∈ [16, 23, 42, 107], 16 ≤ k ∧ k < 24 ∨ 42 ≤ k ∧ k < 108) ∧
    0 < [({ physAddr := 0, length := 0, control := 0, status := 0x55, enable := 0, type := .unused } : SyncEntry)].length := by
  decide

theorem witness_DecodedSectionsAreAppended : ∃ s : State, s.config.catCap ≠ some s.cats.length ∧
    decodeStrings pay10 = some (.strings strs31) ∧ (decodeGeneral pay30).isSome ∧
    decodeFmmu [1, 2, 3, 0] = some (.fmmu [.outputs, .inputs, .smStatus]) ∧ (decodeSyncM pay41).isSome ∧
    decodePdo .tx pay50 = some (.pdo pdo50) ∧ (decodePdo .rx pay51).isSome ∧ (decodeDClock pay60).isSome :=
  ⟨State.reset, by decide +kernel⟩

theorem witness_MalformedSectionsAreFatal : decodeStrings [] = none ∧ decodeGeneral (zeros 31) = none ∧
    decodeFmmu [4, 0] = none ∧ decodeSyncM (zeros 6) = none ∧ decodePdo .tx (zeros 7) = none ∧
    decodePdo .rx (zeros 7) = none ∧ decodeDClock (zeros 85) = none := by decide

theorem witness_SkippedSectionsOnlyLeaveADiagnostic :
    State.reset.config.diagCap ≠ some State.reset.diags.length ∧ ([1, 2] : Bytes).length = ([3, 4] : Bytes).length := by
  decide

/-- The five cases at 128, by the bytes left: none and one; FF FF; two and three; one byte too few; just enough. -/
theorem witness_DescriptorBoundaryCases :
    (∀ b ∈ ([[], [0xFF]] : List Bytes), (atBoundary b).w.phase = .inSection ∧
      (atBoundary b).w.limit.toNat - (atBoundary b).w.pos.toNat < 2) ∧
    ((atBoundary [0xFF, 0xFF]).w.limit.toNat - 128 = 2 ∧
      u16of (inByte (atBoundary [0xFF, 0xFF]).input 128) (inByte (atBoundary [0xFF, 0xFF]).input 129) = 0xFFFF) ∧
    ((atBoundary [0x0A, 0, 1]).w.limit.toNat - 128 = 3 ∧
      u16of (inByte (atBoundary [0x0A, 0, 1]).input 128) (inByte (atBoundary [0x0A, 0, 1]).input 129) = 10) ∧
    ((atBoundary [0x14, 0, 1, 0, 7]).w.limit.toNat - 128 = 5 ∧
      (atBoundary [0x14, 0, 1, 0, 7]).w.limit.toNat - 128 - 4 <
        2 * (u16of (inByte (atBoundary [0x14, 0, 1, 0, 7]).input 130) (inByte (atBoundary [0x14, 0, 1, 0, 7]).input 131)).toNat) ∧
    ((atBoundary [0x14, 0, 1, 0, 7, 8]).w.limit.toNat - 128 = 6 ∧
      2 * (u16of (inByte (atBoundary [0x14, 0, 1, 0, 7, 8]).input 130) (inByte (atBoundary [0x14, 0, 1, 0, 7, 8]).input 131)).toNat ≤
        (atBoundary [0x14, 0, 1, 0, 7, 8]).w.limit.toNat - 128 - 4) := by decide +kernel

theorem witness_FullCapacitiesEndDecode :
    (fullBoundary.config.catCap = some fullBoundary.cats.length ∧ decodeFmmu [1, 2] = some (.fmmu [.outputs, .inputs])) ∧
    fullBoundary.config.diagCap = some fullBoundary.diags.length ∧ crcFold 0xFF (zeros 16) ≠ 0 ∧
    (State.reset.config.catCap = none ∧ State.reset.config.diagCap = none ∧ (ran (exec (.decode 0) State.reset)).isSome) := by
  decide +kernel

theorem witness_DecodeErrorLeavesNoPartialImage : (Code.missingTerminator, (0x03 : Byte)) ∈
    ([(.malformedHeader, 0x01), (.truncatedBuffer, 0x02), (.missingTerminator, 0x03)] : List (Code × Byte)) := by decide

theorem witness_DecodeEndsOkOrFatal : smallest.config.inCap.toNat < (17#32).toNat ∧
    (16#32).toNat ≤ smallest.config.inCap.toNat := by decide

/-- V30 with a Strings, an unknown, a Datatypes and an FMMU section, and two bytes behind the terminator. -/
def secs39 : List (U16 × Bytes) := [(10, pay10), (0x0800, [0xDE, 0xAD]), (20, []), (40, [])]

theorem witness_DecodeLoadsEveryAcceptedImage :
    pre30.length = 16 ∧ cfg30.length = 112 ∧ (∀ x ∈ secs39, sectionAccepted x.1 x.2 = true) ∧
    (List.range (166#32).toNat).map (fun k => inByte (withIn (pre30 ++ (cfg30 ++ (sectionsImage secs39 ++ [7, 8])))).input k) =
      pre30 ++ (cfg30 ++ (sectionsImage secs39 ++ [7, 8])) ∧
    (166#32).toNat ≤ State.reset.config.inCap.toNat ∧ withinCap (some 2) (imageNodes secs39).length = true ∧
    withinCap (some 2) (headerDiags pre30 ++ imageDiags 128 secs39).length = true := by decide +kernel

theorem witness_DecodeIsItsSmallSteps : (16#32).toNat ≤ smallest.config.inCap.toNat := by decide

theorem witness_DecodeReadsOnlyItsInput : ∀ a, a < (3#32).toNat → inByte [(2, 9), (3, 7)] a = inByte [(2, 9)] a := by decide

theorem witness_CursorIsMonotonicAndBounded : ∀ b ∈ ([[], [0xFF, 0xFF], [0x14, 0, 0, 0]] : List Bytes),
    (atBoundary b).w.phase = .inSection ∧ (atBoundary b).w.pos.toNat ≤ (atBoundary b).w.limit.toNat := by decide +kernel

/-- An FMMU node, and a TxPDO node that `opts = 1` suppresses: 138 bytes, with `cap = 138` just enough. -/
theorem witness_EncodeWritesTheImage : ∃ (s : State) (skip : U16 → Bool), s.cats = [node40, node50] ∧
    (∀ t : U16, skip t = true ↔ t.toNat = 50 ∧ (1#32).getLsbD 0 = true ∨ t.toNat = 51 ∧ (1#32).getLsbD 1 = true ∨
      t.toNat = 60 ∧ (1#32).getLsbD 2 = true) ∧
    (138#32).toNat ≤ s.config.outCapMax.toNat ∧ (1#32).toNat < 8 ∧ eepromBytes s.cfg.eepromCode ≤ (138#32).toNat ∧
    checksumConsistent s.pre = true ∧ (∀ c ∈ s.cats, nodeEncodable skip c = true) ∧
    (encodedImage skip s).length ≤ (138#32).toNat :=
  ⟨{ withCats [node40, node50] with pre := pre45 }, skipOf 1, rfl, skipOf_iff 1, by decide +kernel⟩

theorem witness_EncodeErrorsInProgramOrder : ∃ skip : U16 → Bool,
    (∀ t : U16, skip t = true ↔ t.toNat = 50 ∧ (0#32).getLsbD 0 = true ∨ t.toNat = 51 ∧ (0#32).getLsbD 1 = true ∨
      t.toNat = 60 ∧ (0#32).getLsbD 2 = true) ∧
    (smallest.config.outCapMax.toNat < (131#32).toNat ∧ 8 ≤ (8#32).toNat) ∧
    (127#32).toNat < eepromBytes State.reset.cfg.eepromCode ∧
    (eepromBytes State.reset.cfg.eepromCode ≤ (128#32).toNat ∧ checksumConsistent State.reset.pre = false) ∧
    (checksumConsistent pre45 = true ∧ (withCats [node40, node20]).cats = [node40] ++ node20 :: [] ∧
      nodeEncodable skip node40 = true ∧ 136 = 128 + ([node40].flatMap (nodeImage skip)).length ∧
      skip node20.type = false ∧ node20.type = 20) ∧
    (skip node40.type = false ∧ node40.type ≠ 20 ∧ (encodePayload node40.payload).length ≤ 131070 ∧
      128 ≤ (135#32).toNat ∧ (135#32).toNat < 128 + 4 + (encodePayload node40.payload).length) ∧
    ((encodedImage skip { State.reset with pre := pre45 }).length - 2 ≤ (129#32).toNat ∧
      (129#32).toNat < (encodedImage skip { State.reset with pre := pre45 }).length) :=
  ⟨skipOf 0, skipOf_iff 0, by decide +kernel⟩

theorem encodeFmmu_length_ge (us : List FmmuUsage) : us.length ≤ (encodePayload (.fmmu us)).length := by
  simp only [encodePayload, encodeFmmu, padEven]
  split <;> simp

theorem long_fmmu (n : Nat) (h : 131070 < n) :
    131070 < (encodePayload (.fmmu (List.replicate n .outputs))).length := by
  have := encodeFmmu_length_ge (List.replicate n .outputs)
  rw [List.length_replicate] at this
  omega

/-- A payload that no descriptor can size, of 131071 codes. -/
theorem witness_EncodeErrorsSectionTooLarge : ∃ us : List FmmuUsage, us.length = 131071 ∧
    131070 < (encodePayload (.fmmu us)).length ∧ 40#16 ≠ 20#16 ∧ skipOf 0 40 = false := by
  obtain ⟨n, hn⟩ : ∃ n, n = 131071 := ⟨_, rfl⟩
  exact ⟨List.replicate n .outputs, by rw [List.length_replicate, hn], long_fmmu n (by omega), by decide, rfl⟩

theorem witness_EncodeStaysBelowTheCapacity :
    (ran (exec (.encode 130 0) { smallest with pre := pre45 })).map (·.status) = some 0 ∧
    (ran (exec (.encode 129 0) { smallest with pre := pre45 })).map (·.status) = some 0x22 := by decide +kernel

theorem witness_EmittedPreambleFoldsToZero :
    (ran (exec (.encode 130 0) { State.reset with pre := pre45 })).map (·.status) = some 0 := by decide +kernel

/-- V30 with the first record of V31's SyncM section and its TxPDO section, which `opts = 1` suppresses. -/
theorem witness_DecodeThenEncodeRoundTrip : ∃ skip : U16 → Bool,
    (∀ t : U16, skip t = true ↔ t.toNat = 50 ∧ (1#32).getLsbD 0 = true ∨ t.toNat = 51 ∧ (1#32).getLsbD 1 = true ∨
      t.toNat = 60 ∧ (1#32).getLsbD 2 = true) ∧
    canonicalPreamble pre30 = true ∧ canonicalStdConfig cfg30 = true ∧
    (∀ x ∈ [(41#16, pay41), (50#16, pay50)], payloadWf x.2 = true ∧ x.1 ∈ codecTypes ∧ canonicalPayload x.1 x.2 = true) ∧
    (List.range (162#32).toNat).map
        (fun k => inByte (withIn (pre30 ++ (cfg30 ++ sectionsImage [(41, pay41), (50, pay50)]))).input k) =
      pre30 ++ (cfg30 ++ sectionsImage [(41, pay41), (50, pay50)]) ∧
    withinCap (some 2) [(41#16, pay41), (50#16, pay50)].length = true ∧ (1#32).toNat < 8 ∧
    (pre30 ++ (cfg30 ++ sectionsImage ([(41#16, pay41), (50#16, pay50)].filter (fun x => !(skip x.1))))).length
      ≤ (2048#32).toNat ∧
    eepromBytes (rd16 cfg30 108) ≤ (2048#32).toNat ∧ (2048#32).toNat ≤ State.reset.config.outCapMax.toNat :=
  ⟨skipOf 1, skipOf_iff 1, by decide +kernel⟩

theorem witness_AppendStoresTheSection :
    (smallest.config.inCap.toNat < (13#32).toNat + (4#32).toNat ∧ (3#32).toNat < 4) ∧
    ((6#32).toNat ≠ 4 + 2 * (rd16 [0x28, 0, 2, 0, 1, 2] 2).toNat ∧ rd16 [0x00, 0x08, 0, 0] 0 ∉ categoryTypes) ∧
    ((12#32).toNat + (4#32).toNat ≤ smallest.config.inCap.toNat ∧ (4#32).toNat = 4 + 2 * (rd16 [0x28, 0, 0, 0] 2).toNat ∧
      rd16 [0x28, 0, 0, 0] 0 ∈ categoryTypes ∧ smallest.config.catCap = some smallest.cats.length ∧
      State.reset.config.catCap ≠ some State.reset.cats.length) ∧
    decodePayload 10 [] = none ∧ decodePayload 40 [1, 2] = some (.fmmu [.outputs, .inputs]) ∧
    rd16 [0x14, 0, 0, 0] 0 = 20 := by decide +kernel

theorem witness_FindAnswersTheFirstOfTheType :
    0xFFFF < (0x10000#32).toNat ∧ (withCats [node10]).cats.length ≤ (1#32).toNat ∧
    (0#32).toNat < (withCats [node10]).cats.length ∧ (51#32).toNat ≤ 0xFFFF ∧
    ((withCats [node10, node51, node51]).cats[1]? = some node51 ∧ node51.type.toNat = (51#32).toNat ∧
      node10.type.toNat ≠ (51#32).toNat) ∧
    (∀ c ∈ (withCats [node10, node40]).cats, c.type.toNat ≠ (51#32).toNat) := by decide

theorem witness_RemoveLastTakesTheTail : State.reset.cats = [] ∧ (withCats [node10, node40]).cats = [node10] ++ [node40] := by decide

theorem witness_ReadOutCommandsAnswerTheElement :
    (withCats [node10]).cats[(0#32).toNat]? = some node10 ∧ (withCats [node10]).cats.length ≤ (1#32).toNat ∧
    { State.reset with diags := [ErrRec.zero] }.diags[(0#32).toNat]? = some ErrRec.zero ∧
    { State.reset with diags := [ErrRec.zero] }.diags.length ≤ (1#32).toNat := by decide

theorem witness_StrAddGivesTheNextId :
    (withCats [node10]).cats.length ≤ (1#32).toNat ∧ (withCats [node40]).cats[(0#32).toNat]? = some node40 ∧ node40.type ≠ 10 ∧
    (withCats [node10]).cats[(0#32).toNat]? = some node10 ∧ node10.type = 10 ∧ node10.payload = .strings strs31 ∧
    (smallest.config.inCap.toNat < (1#32).toNat + (16#32).toNat ∧ 255 < (256#32).toNat ∧
      (List.replicate 255 ([] : Bytes)).length = 255) ∧
    ((1#32).toNat + (15#32).toNat ≤ smallest.config.inCap.toNat ∧ (255#32).toNat ≤ 255 ∧
      (List.replicate 254 ([] : Bytes)).length < 255 ∧ strs31[1]? = some [0x44, 0x72, 0x69, 0x76, 0x65]) := by decide +kernel

theorem witness_StrByIdIsOneBased :
    (withCats [node10]).cats.length ≤ (1#32).toNat ∧ (withCats [node40]).cats[(0#32).toNat]? = some node40 ∧ node40.type ≠ 10 ∧
    (withCats [node10]).cats[(0#32).toNat]? = some node10 ∧ node10.type = 10 ∧ node10.payload = .strings strs31 ∧
    (1 ≤ (2#32).toNat ∧ (2#32).toNat ≤ strs31.length) ∧ (0#32).toNat = 0 ∧ strs31.length < (3#32).toNat := by decide

theorem witness_StrFindAnswersTheLowestId :
    (withCats [node10]).cats[(0#32).toNat]? = some node10 ∧ node10.payload = .strings strs31 ∧ node40.type ≠ 10 ∧
    smallest.config.inCap.toNat < (16#32).toNat + (1#32).toNat ∧ (16#32).toNat + (0#32).toNat ≤ smallest.config.inCap.toNat ∧
    strs31[0]? = some [0x53, 0x4F, 0x4D, 0x41, 0x4E, 0x45, 0x54] ∧ ([] : Bytes) ∉ strs31 := by decide

theorem witness_EveryCommandEndsInOneOfThreeWays : isHostCommand .release = true ∧ isHostCommand (.decode 0) = true ∧
    isHostCommand .endMark = false := by decide

theorem witness_HostCommandsWriteOnlyTheirElements : isHostCommand .crcInit = true ∧
    (∃ t, exec .crcInit State.reset = .next t) ∧ writesWalker .crcInit = false ∧ writesHeader .crcInit = false ∧
    writesCats .crcInit = false ∧ writesOut .crcInit = false ∧ writesErr .crcInit = false ∧ writesDiag .crcInit = false ∧
    writesWriter .crcInit = false ∧ writesCrc .sort = false :=
  ⟨rfl, ⟨_, rfl⟩, rfl, rfl, rfl, rfl, rfl, rfl, rfl, rfl⟩

/-- A state with a registry and a diagnostic, in the middle of a walk. -/
def midWalk : State :=
  { atBoundary [0x28, 0, 1, 0, 1, 2, 0xFF, 0xFF] with
    cats := [node10], diags := [{ code := 0x10, secType := 0, pos := 0 }] }

theorem witness_StepKeepsTheStateInvariant : stateInv midWalk = true ∧
    (ran (step midWalk)).map (fun t => (t.cats.length, t.w.pos, stateInv t)) = some (2, 134, true) := by decide +kernel

end Sys2Proof.Tests
end

section
/-! SUPPORT. One step of the machine by where it fetches: the head of the host's events, or the cursor of a walk
(00_scope.md R2, R11). -/

namespace Sys2Proof.Machine

/-! ## A walk in progress -/

/-- What the walk fetches in the phase `Preamble` (44_walker.md R262). -/
theorem fetchItem_preamble {s : State} (h : s.w.phase = .preamble) :
    fetchItem s = decode (.item .preamble (memRead s 0 s.w.limit.toNat)) := by
  simp only [fetchItem, h]
  rfl

/-- What the walk fetches in the phase `StdConfig` (44_walker.md R263). -/
theorem fetchItem_stdConfig {s : State} (h : s.w.phase = .stdConfig) :
    fetchItem s = decode (.item .stdConfig (memRead s 16 (s.w.limit.toNat - 16))) := by
  simp only [fetchItem, h]
  rfl

/-- What the walk fetches in the phase `Section` (44_walker.md R264). -/
theorem fetchItem_inSection {s : State} (h : s.w.phase = .inSection) :
    fetchItem s = decode (.item .descriptor (memRead s s.w.pos.toNat (s.w.limit.toNat - s.w.pos.toNat))) := by
  simp only [fetchItem, h]
  rfl

theorem walkStep_of_fetched {s : State} {i : Instr} (h : fetchItem s = .ok i) : walkStep s = execWire i s := by
  simp only [walkStep, h]

theorem walkStep_of_fetch_error {s : State} {e : DecodeError} (h : fetchItem s = .error e) :
    walkStep s = .next (fetchFailed e s) := by
  simp only [walkStep, h]

theorem step_of_fetched {s : State} {i : Instr} (hw : walking s.w.phase = true) (hf : fetchItem s = .ok i) :
    step s = exec i s := by
  rw [step_walking hw, walkStep_of_fetched hf, execWire_eq_exec (fetchItem_not_command hf)]

/-! ## No walk in progress -/

theorem not_walking_of_accepting {s : State} (h : accepting s = true) : ¬ walking s.w.phase = true := by
  intro hw
  cases hp : s.w.phase <;> simp [accepting, walking, hp] at h hw

theorem step_of_command {s : State} {c : Command} {rest : List HostEvent} {i : Instr} (ha : accepting s = true)
    (hh : s.host = .command c :: rest) (hd : decode (.command c) = .ok i) :
    step s = exec i { s with host := rest } := by
  simp only [step, if_neg (not_walking_of_accepting ha), hh, hd]

/-- With nothing pending the block waits (log 9). -/
theorem step_of_nothing_pending {s : State} (ha : accepting s = true) (hh : s.host = []) : step s = .next s := by
  simp only [step, if_neg (not_walking_of_accepting ha), hh]

/-- Settles O3: one rule of the step for each place it fetches from. -/
theorem stepRunsTheDecodedInstruction : Obligations.StepRunsTheDecodedInstruction := by
  refine ⟨fun s c rest i ha hh hd => step_of_command ha hh hd, ?_, ?_, ?_, fun s => step_of_nothing_pending⟩
  · intro s i hp hd
    exact step_of_fetched (by rw [hp]; rfl) ((fetchItem_preamble hp).trans hd)
  · intro s i hp hd
    exact step_of_fetched (by rw [hp]; rfl) ((fetchItem_stdConfig hp).trans hd)
  · intro s i hp hd
    exact step_of_fetched (by rw [hp]; rfl) ((fetchItem_inSection hp).trans hd)

end Sys2Proof.Machine
end

section
/-! SUPPORT. The atomic DECODE command against the small-step machine (00_scope.md R11, 44_walker.md R260). -/

namespace Sys2Proof.Machine

theorem core_run_succ {s u : State} (h : step s = .next u) (k : Nat) :
    Host.Core.run core (k + 1) s = Host.Core.run core k u := by
  have hc : core.step s = .next u := h
  simp only [Host.Core.run, hc]

theorem runWalk_of_not_walking {s : State} (h : ¬ walking s.w.phase = true) (k : Nat) : runWalk k s = .next s := by
  cases k with
  | zero => rfl
  | succ k => simp only [runWalk, if_neg h]

theorem runWalk_succ {s u : State} (hw : walking s.w.phase = true) (hs : walkStep s = .next u) (k : Nat) :
    runWalk (k + 1) s = runWalk k u := by
  simp only [runWalk, if_pos hw, hs]

/-- The walk takes the machine's own steps, and stops taking them when it is over. -/
theorem runWalk_eq_run (k : Nat) (s : State) : ∃ j, j ≤ k ∧ Host.Core.run core j s = runWalk k s := by
  induction k generalizing s with
  | zero => exact ⟨0, Nat.le_refl 0, rfl⟩
  | succ k ih =>
    by_cases hw : walking s.w.phase = true
    · obtain ⟨u, hu⟩ := walkStep_next s
      obtain ⟨j, hj, hrun⟩ := ih u
      refine ⟨j + 1, Nat.succ_le_succ hj, ?_⟩
      rw [core_run_succ ((step_walking hw).trans hu), hrun, runWalk_succ hw hu]
    · exact ⟨0, Nat.zero_le _, (runWalk_of_not_walking hw _).symm⟩

theorem exec_decode_of_le {n : U32} {s : State} (h : n.toNat ≤ s.config.inCap.toNat) :
    exec (.decode n) s = runWalk (walkBound n) (startDecode n s) := by
  simp only [exec, execDecode, if_pos h]

/-- Settles O40: DECODE runs the walk for at most `walkBound n` steps. -/
theorem decodeIsItsSmallSteps : Obligations.DecodeIsItsSmallSteps := by
  intro n s hn
  rw [exec_decode_of_le hn]
  exact runWalk_eq_run (walkBound n) (startDecode n s)

end Sys2Proof.Machine
end

section
/-! SUPPORT. Every walk ends within `walkBound` steps, and only ok or by a fatal error of DECODE (44_walker.md R273,
R274, R276). -/

namespace Sys2Proof.Machine

/-- How a walk is over: ok in the phase `Terminal`, or by a fatal error of DECODE (44_walker.md R273, R274). -/
inductive WalkEnded : State → Prop
  | ok {v0 v1 : U32} {r : Result} {u : State} (hp : u.w.phase = .terminal) : WalkEnded (finish v0 v1 r u)
  | raised {c : Code} {t : U16} {p : U32} {u : State} (hc : codeByte c ∈ decodeErrorCodes) :
      WalkEnded (raiseDecode c t p u)

theorem WalkEnded.not_walking {s : State} (h : WalkEnded s) : ¬ walking s.w.phase = true := by
  cases h with
  | ok hp => simp [hp, walking]
  | raised hc => simp [walking]

/-- In the section loop the cursor stands inside the input (10_state.md R49 h). -/
def CursorInside (w : Walker) : Prop := w.phase = .inSection → w.pos.toNat ≤ w.limit.toNat

/-- A number of steps within which the walk is over: a section takes at least the 4 bytes of its descriptor. -/
def stepsLeft (w : Walker) : Nat :=
  match w.phase with
  | .preamble => w.limit.toNat / 4 + 3
  | .stdConfig => w.limit.toNat / 4 + 2
  | .inSection => (w.limit.toNat - w.pos.toNat) / 4 + 1
  | .idle | .terminal | .failed => 0

theorem stepsLeft_pos {w : Walker} (h : walking w.phase = true) : 0 < stepsLeft w := by
  cases hp : w.phase <;> simp [stepsLeft, walking, hp] at h ⊢

/-- A step that does not end the walk leaves it in progress, nearer to its end. -/
structure WalkGoesOn (w w' : Walker) : Prop where
  walking : walking w'.phase = true
  inside : CursorInside w'
  nearer : stepsLeft w' < stepsLeft w

/-! ## A fetch that fails -/

theorem decodeSection_ne_badCommand (b : Bytes) : decodeSection b ≠ .error .badCommand := by
  unfold decodeSection
  repeat' split
  all_goals simp

theorem decodeItem_ne_badCommand (slot : WireSlot) (b : Bytes) : decodeItem slot b ≠ .error .badCommand := by
  cases slot with
  | preamble => simp only [decodeItem]; split <;> simp
  | stdConfig => simp only [decodeItem]; split <;> simp
  | descriptor => exact decodeSection_ne_badCommand b

theorem fetchItem_ne_badCommand (s : State) : fetchItem s ≠ .error .badCommand := by
  cases hp : s.w.phase <;> simpa only [fetchItem, hp] using decodeItem_ne_badCommand _ _

/-- Every reason but an unknown command code is a fatal error of DECODE (44_walker.md R262 to R265). -/
theorem fetchFailed_ended {e : DecodeError} (h : e ≠ .badCommand) (s : State) : WalkEnded (fetchFailed e s) := by
  cases e with
  | badCommand => exact absurd rfl h
  | headerShort => exact .raised (by decide)
  | configShort => exact .raised (by decide)
  | noTypeWord => exact .raised (by decide)
  | noSizeWord t => exact .raised (by decide)
  | payloadShort t w => exact .raised (by decide)

theorem walkStep_ended_of_fetch_error {s : State} {e : DecodeError} (h : fetchItem s = .error e) :
    ∃ t, walkStep s = .next t ∧ WalkEnded t :=
  ⟨_, walkStep_of_fetch_error h, fetchFailed_ended (fun he => fetchItem_ne_badCommand s (he ▸ h)) s⟩

/-! ## The two header blocks -/

theorem fetchItem_preamble_ok {s : State} {i : Instr} (hp : s.w.phase = .preamble) (h : fetchItem s = .ok i) :
    ∃ p, i = .preamble p := by
  rw [fetchItem_preamble hp] at h
  simp only [decode, decodeItem] at h
  split at h <;> cases h
  exact ⟨_, rfl⟩

theorem fetchItem_stdConfig_ok {s : State} {i : Instr} (hp : s.w.phase = .stdConfig) (h : fetchItem s = .ok i) :
    ∃ c, i = .stdconfig c ∧ 128 ≤ s.w.limit.toNat := by
  rw [fetchItem_stdConfig hp] at h
  simp only [decode, decodeItem, memRead_length, Config.cfgBytes] at h
  split at h <;> cases h
  exact ⟨_, rfl, by omega⟩

/-- PREAMBLE loads its registers and goes on to the standard config, unless DIAG has no room for its diagnostic. -/
theorem execPreamble_cases (p : Bytes) (s : State) :
    ∃ t, execPreamble p s = .next t ∧ (WalkEnded t ∨ t.w = { s.w with pos := 16, phase := .stdConfig }) := by
  unfold execPreamble
  split
  · exact ⟨_, rfl, .inr rfl⟩
  · refine ⟨_, rfl, ?_⟩
    obtain ⟨-, h⟩ | ⟨-, h⟩ := withDiag_cases .checksumInvalid 0 0 enterStdConfig
      { s with pre := loadPreamble p (checksumFlag p) }
    · exact .inl (h ▸ .raised (by decide))
    · exact .inr (h ▸ rfl)

theorem walkStep_preamble {s : State} {i : Instr} (hp : s.w.phase = .preamble) (hf : fetchItem s = .ok i) :
    ∃ t, walkStep s = .next t ∧ (WalkEnded t ∨ WalkGoesOn s.w t.w) := by
  obtain ⟨p, rfl⟩ := fetchItem_preamble_ok hp hf
  obtain ⟨t, ht, he | hw⟩ := execPreamble_cases p s
  · exact ⟨t, (walkStep_of_fetched hf).trans ht, .inl he⟩
  · refine ⟨t, (walkStep_of_fetched hf).trans ht, .inr ⟨by rw [hw]; rfl, ?_, ?_⟩⟩
    · simp [CursorInside, hw]
    · simp [stepsLeft, hw, hp]

theorem walkStep_stdConfig {s : State} {i : Instr} (hp : s.w.phase = .stdConfig) (hf : fetchItem s = .ok i) :
    ∃ t, walkStep s = .next t ∧ WalkGoesOn s.w t.w := by
  obtain ⟨c, rfl, hl⟩ := fetchItem_stdConfig_ok hp hf
  refine ⟨_, walkStep_of_fetched hf, rfl, fun _ => hl, ?_⟩
  have : (s.w.limit.toNat - 128) / 4 + 1 < s.w.limit.toNat / 4 + 2 := by omega
  simpa [stepsLeft, hp] using this

/-! ## The section loop -/

/-- What stands at a descriptor boundary: the terminator, or a section that fits in the bytes left. -/
theorem decodeSection_ok {b : Bytes} {i : Instr} (h : decodeSection b = .ok i) :
    i = .endMark ∨ ∃ t p, i = sectionInstr t p ∧ 4 + p.length ≤ b.length := by
  unfold decodeSection at h
  split at h
  · cases h
  · split at h
    · cases h; exact .inl rfl
    · split at h
      · cases h
      · split at h <;> cases h
        exact .inr ⟨_, _, rfl, by simp only [List.length_take, List.length_drop]; omega⟩

theorem fetchItem_inSection_ok {s : State} {i : Instr} (hp : s.w.phase = .inSection) (h : fetchItem s = .ok i) :
    i = .endMark ∨ ∃ t p, i = sectionInstr t p ∧ 4 + p.length ≤ s.w.limit.toNat - s.w.pos.toNat := by
  rw [fetchItem_inSection hp] at h
  simpa only [memRead_length] using decodeSection_ok h

theorem storeSection_ends_or_walks (t : U16) (v : Option Payload) (p : Bytes) (s : State) :
    WalkEnded (storeSection t v p s) ∨ (storeSection t v p s).w = walkedPast t p s.w := by
  obtain ⟨-, h⟩ | ⟨x, -, -, h⟩ | ⟨x, -, -, h⟩ := storeSection_cases t v p s
  · exact .inl (h ▸ .raised (by decide))
  · exact .inl (h ▸ .raised (by decide))
  · exact .inr (h ▸ rfl)

theorem skipSection_ends_or_walks (c : Code) (t : U16) (p : Bytes) (s : State) :
    WalkEnded (skipSection c t p s) ∨ (skipSection c t p s).w = walkedPast t p s.w := by
  obtain ⟨-, h⟩ | ⟨-, h⟩ := skipSection_cases c t p s
  · exact .inl (h ▸ .raised (by decide))
  · exact .inr (h ▸ rfl)

/-- A section of any type ends the walk or moves the cursor behind itself (44_walker.md R270, R271). -/
theorem execWire_sectionInstr (t : U16) (p : Bytes) (s : State) :
    ∃ u, execWire (sectionInstr t p) s = .next u ∧ (WalkEnded u ∨ u.w = walkedPast t p s.w) := by
  have stored {k : U16} {v : Option Payload} (h : t.toNat = k.toNat) :
      WalkEnded (storeSection k v p s) ∨ (storeSection k v p s).w = walkedPast t p s.w := by
    obtain rfl := BitVec.eq_of_toNat_eq h
    exact storeSection_ends_or_walks t v p s
  unfold sectionInstr
  split
  next h => exact ⟨_, rfl, stored h⟩
  next h =>
    obtain rfl : t = 20 := BitVec.eq_of_toNat_eq h
    exact ⟨_, rfl, skipSection_ends_or_walks _ 20 p s⟩
  next h => exact ⟨_, rfl, stored h⟩
  next h => exact ⟨_, rfl, stored h⟩
  next h => exact ⟨_, rfl, stored h⟩
  next h => exact ⟨_, rfl, stored h⟩
  next h => exact ⟨_, rfl, stored h⟩
  next h => exact ⟨_, rfl, stored h⟩
  next => exact ⟨_, rfl, skipSection_ends_or_walks _ t p s⟩

/-- The cursor does not wrap around behind a section that fits in the input. -/
theorem walkedPast_pos_toNat {t : U16} {p : Bytes} {w : Walker} (h : w.pos.toNat + (4 + p.length) ≤ w.limit.toNat) :
    (walkedPast t p w).pos.toNat = w.pos.toNat + (4 + p.length) := by
  have := w.limit.isLt
  simp only [walkedPast, BitVec.toNat_add, BitVec.toNat_ofNat]
  omega

theorem walkedPast_goesOn {t : U16} {p : Bytes} {w : Walker} (hp : w.phase = .inSection)
    (h : w.pos.toNat + (4 + p.length) ≤ w.limit.toNat) : WalkGoesOn w (walkedPast t p w) := by
  have hpos := walkedPast_pos_toNat (t := t) h
  have hphase : (walkedPast t p w).phase = .inSection := hp
  have hlimit : (walkedPast t p w).limit = w.limit := rfl
  refine ⟨by rw [hphase]; rfl, fun _ => by rw [hpos, hlimit]; exact h, ?_⟩
  simp only [stepsLeft, hphase, hp, hpos, hlimit]
  omega

theorem walkStep_inSection {s : State} {i : Instr} (hp : s.w.phase = .inSection) (hin : CursorInside s.w)
    (hf : fetchItem s = .ok i) : ∃ t, walkStep s = .next t ∧ (WalkEnded t ∨ WalkGoesOn s.w t.w) := by
  have hle := hin hp
  obtain rfl | ⟨ty, p, rfl, hfit⟩ := fetchItem_inSection_ok hp hf
  · exact ⟨_, walkStep_of_fetched hf, .inl (.ok rfl)⟩
  · obtain ⟨u, hu, he | hw⟩ := execWire_sectionInstr ty p s
    · exact ⟨u, (walkStep_of_fetched hf).trans hu, .inl he⟩
    · exact ⟨u, (walkStep_of_fetched hf).trans hu, .inr (hw ▸ walkedPast_goesOn hp (by omega))⟩

/-! ## The whole walk -/

/-- A step of a walk ends it or brings it nearer to its end. -/
theorem walkStep_ends_or_goesOn {s : State} (hw : walking s.w.phase = true) (hin : CursorInside s.w) :
    ∃ t, walkStep s = .next t ∧ (WalkEnded t ∨ WalkGoesOn s.w t.w) := by
  cases hf : fetchItem s with
  | error e =>
    obtain ⟨t, ht, he⟩ := walkStep_ended_of_fetch_error hf
    exact ⟨t, ht, .inl he⟩
  | ok i =>
    cases hp : s.w.phase with
    | preamble => exact walkStep_preamble hp hf
    | stdConfig =>
      obtain ⟨t, ht, hg⟩ := walkStep_stdConfig hp hf
      exact ⟨t, ht, .inr hg⟩
    | inSection => exact walkStep_inSection hp hin hf
    | idle | terminal | failed => simp [hp, walking] at hw

theorem runWalk_ended {k : Nat} {s : State} (hw : walking s.w.phase = true) (hin : CursorInside s.w)
    (hk : stepsLeft s.w ≤ k) : ∃ t, runWalk k s = .next t ∧ WalkEnded t := by
  induction k generalizing s with
  | zero => exact absurd (stepsLeft_pos hw) (by omega)
  | succ k ih =>
    obtain ⟨u, hu, he | hg⟩ := walkStep_ends_or_goesOn hw hin
    · exact ⟨u, by rw [runWalk_succ hw hu, runWalk_of_not_walking he.not_walking], he⟩
    · have hlt := hg.nearer
      rw [runWalk_succ hw hu]
      exact ih hg.walking hg.inside (by omega)

/-- `walkBound n` steps suffice for every input of `n` bytes (44_walker.md R276). -/
theorem runWalk_startDecode_ended (n : U32) (s : State) :
    ∃ t, runWalk (walkBound n) (startDecode n s) = .next t ∧ WalkEnded t :=
  runWalk_ended rfl (by simp [CursorInside]) (by simp [stepsLeft, walkBound])

end Sys2Proof.Machine
end

section
/-! SUPPORT. Every error inside ENCODE is raised with one of ENCODE's codes (45_writer.md R305, R306). -/

namespace Sys2Proof.Machine

/-- `t` is left by a fatal error of ENCODE (45_writer.md R305). -/
def EncodeRaised (t : State) : Prop :=
  ∃ c ty p u, t = raiseEncode c ty p u ∧ codeByte c ∈ encodeErrorCodes

/-- A part of ENCODE that stops only by raising one of ENCODE's codes. -/
def OnlyRaises (x : Except State State) : Prop := ∀ t, x = .error t → EncodeRaised t

theorem onlyRaises_ok (s : State) : OnlyRaises (.ok s) := by
  intro t h
  cases h

theorem onlyRaises_raise {c : Code} (hc : codeByte c ∈ encodeErrorCodes) (ty : U16) (p : U32) (s : State) :
    OnlyRaises (.error (raiseEncode c ty p s)) := by
  intro t h
  cases h
  exact ⟨c, ty, p, s, rfl, hc⟩

theorem OnlyRaises.bind {x : Except State State} {f : State → Except State State} (hx : OnlyRaises x)
    (hf : ∀ s, OnlyRaises (f s)) : OnlyRaises (x.bind f) := by
  cases x with
  | error e => exact hx
  | ok s => exact hf s

theorem capacityStep_onlyRaises (cap : U32) (s : State) : OnlyRaises (capacityStep cap s) := by
  unfold capacityStep
  split
  · exact onlyRaises_raise (by decide) _ _ _
  · exact onlyRaises_ok s

theorem preambleStep_onlyRaises (s : State) : OnlyRaises (preambleStep s) := by
  unfold preambleStep
  split
  · exact onlyRaises_ok _
  · exact onlyRaises_raise (by decide) _ _ _

theorem categoryStep_onlyRaises (cap : U32) (k : Nat) (c : Category) (s : State) :
    OnlyRaises (categoryStep cap k c s) := by
  obtain ⟨u, -, ⟨-, h⟩ | ⟨-, ⟨-, h⟩ | ⟨-, -, h⟩ | ⟨-, -, -, h⟩ | ⟨-, -, -, h⟩⟩⟩ := categoryStep_cases cap k c s
  · exact h ▸ onlyRaises_ok u
  · exact h ▸ onlyRaises_raise (by decide) _ _ _
  · exact h ▸ onlyRaises_raise (by decide) _ _ _
  · exact h ▸ onlyRaises_raise (by decide) _ _ _
  · exact h ▸ onlyRaises_ok _

theorem categorySteps_cons (cap : U32) (k : Nat) (c : Category) (cs : List Category) (s : State) :
    categorySteps cap k (c :: cs) s = (categoryStep cap k c s).bind (categorySteps cap (k + 1) cs) := by
  simp only [categorySteps]
  cases categoryStep cap k c s <;> rfl

theorem categorySteps_onlyRaises (cap : U32) (k : Nat) (cs : List Category) (s : State) :
    OnlyRaises (categorySteps cap k cs s) := by
  induction cs generalizing k s with
  | nil => exact onlyRaises_ok s
  | cons c cs ih =>
    rw [categorySteps_cons]
    exact (categoryStep_onlyRaises cap k c s).bind (ih (k + 1))

theorem terminatorStep_onlyRaises (cap : U32) (s : State) : OnlyRaises (terminatorStep cap s) := by
  unfold terminatorStep
  split
  · exact onlyRaises_raise (by decide) _ _ _
  · exact onlyRaises_ok _

theorem encodeSteps_onlyRaises (cap : U32) (s : State) : OnlyRaises (encodeSteps cap s) :=
  (capacityStep_onlyRaises cap s).bind fun s =>
  (preambleStep_onlyRaises s).bind fun s =>
  (categorySteps_onlyRaises cap 0 (stdConfigStep s).cats (stdConfigStep s)).bind fun s =>
  terminatorStep_onlyRaises cap s

end Sys2Proof.Machine
end

section
/-! SUPPORT. How each host command ends: ok, refused, or by a fatal error of its own kind (00_scope.md R10;
60_exceptions.md R321, R330, R332). -/

namespace Sys2Proof.Machine

/-- How the command `i`, issued in `s`, may end: by one of the model's operations that end a command, a fatal error
only after the command that can raise it, and a refusal on the state the command was issued in. -/
inductive CommandEnds (i : Instr) (s : State) : Out → Prop
  | ok {v0 v1 : U32} {r : Result} {u : State} : CommandEnds i s (.next (finish v0 v1 r u))
  | refused {c : Code} (hc : codeByte c ∈ refusalCodes) : CommandEnds i s (.next (refuse c s))
  | decodeFailed {c : Code} {t : U16} {p : U32} {u : State} (hi : ∃ n, i = .decode n)
      (hc : codeByte c ∈ decodeErrorCodes) : CommandEnds i s (.next (raiseDecode c t p u))
  | encodeFailed {c : Code} {t : U16} {p : U32} {u : State} (hi : ∃ cap opts, i = .encode cap opts)
      (hc : codeByte c ∈ encodeErrorCodes) : CommandEnds i s (.next (raiseEncode c t p u))

section

variable {i : Instr}

theorem badOperand_ends (s : State) : CommandEnds i s (.next (refuse .badOperand s)) := .refused (by decide)

theorem indexOutOfRange_ends (s : State) : CommandEnds i s (.next (refuse .indexOutOfRange s)) := .refused (by decide)

/-- The most common shape of a command: one operand test, and then the command cannot fail. -/
theorem tested_ends {s u : State} {b : Bool} {v0 v1 : U32} {r : Result} :
    CommandEnds i s (if b then .next (finish v0 v1 r u) else .next (refuse .badOperand s)) := by
  cases b with
  | true => exact .ok
  | false => exact badOperand_ends s

/-! ## DECODE and ENCODE -/

theorem execDecode_ends (n : U32) (s : State) : CommandEnds (.decode n) s (execDecode n s) := by
  unfold execDecode
  split
  · obtain ⟨t, ht, he⟩ := runWalk_startDecode_ended n s
    rw [ht]
    cases he with
    | ok hp => exact .ok
    | raised hc => exact .decodeFailed ⟨n, rfl⟩ hc
  · exact badOperand_ends s

theorem execEncode_ends (cap opts : U32) (s : State) : CommandEnds (.encode cap opts) s (execEncode cap opts s) := by
  unfold execEncode
  split
  · cases h : encodeSteps cap (startEncode (opts.setWidth 3) s) with
    | ok t => exact .ok
    | error t =>
      obtain ⟨c, ty, p, u, rfl, hc⟩ := encodeSteps_onlyRaises cap _ t h
      exact .encodeFailed ⟨cap, opts, rfl⟩ hc
  · exact badOperand_ends s

/-! ## The registry -/

theorem appendSection_ends (b : Bytes) (s : State) : CommandEnds i s (.next (appendSection b s)) := by
  unfold appendSection
  split
  · exact badOperand_ends s
  · split
    · exact badOperand_ends s
    · split
      · exact .refused (by decide)
      · split
        · exact badOperand_ends s
        · exact .ok

theorem execAppend_ends (a len : U32) (s : State) : CommandEnds i s (execAppend a len s) := by
  unfold execAppend
  split
  · exact appendSection_ends _ s
  · exact badOperand_ends s

theorem findAnswer_ends (t : U32) (s : State) : CommandEnds i s (.next (findAnswer t s)) := by
  unfold findAnswer
  split
  · split <;> exact .ok
  · exact badOperand_ends s

theorem execRemoveLast_ends (s : State) : CommandEnds i s (execRemoveLast s) := by
  unfold execRemoveLast
  split
  · exact .refused (by decide)
  · exact .ok

theorem execFindNeighbor_ends (j t : U32) (s : State) : CommandEnds i s (execFindNeighbor j t s) := by
  unfold execFindNeighbor
  split
  · exact findAnswer_ends t s
  · exact indexOutOfRange_ends s

theorem execRdCat_ends (j : U32) (s : State) : CommandEnds i s (execRdCat j s) := by
  unfold execRdCat
  split
  · exact indexOutOfRange_ends s
  · exact .ok

/-! ## The string table -/

theorem stringNode_error {j : U32} {s : State} {c : Code} (h : stringNode j s = .error c) :
    codeByte c ∈ refusalCodes := by
  unfold stringNode at h
  split at h
  · cases h; decide
  · split at h <;> cases h
    decide

theorem execStrAdd_ends (j a len : U32) (s : State) : CommandEnds i s (execStrAdd j a len s) := by
  unfold execStrAdd
  split
  next h => exact .refused (stringNode_error h)
  next => exact tested_ends

theorem execStrById_ends (j k : U32) (s : State) : CommandEnds i s (execStrById j k s) := by
  unfold execStrById
  split
  next h => exact .refused (stringNode_error h)
  next => split <;> exact .ok

theorem execStrFind_ends (j a len : U32) (s : State) : CommandEnds i s (execStrFind j a len s) := by
  unfold execStrFind
  split
  next h => exact .refused (stringNode_error h)
  next => exact tested_ends

/-! ## The registers and the diagnostics -/

theorem execRdReg_ends (r : U32) (s : State) : CommandEnds i s (execRdReg r s) := by
  unfold execRdReg
  split
  · exact badOperand_ends s
  · exact tested_ends

theorem execWrReg_ends (r v : U32) (s : State) : CommandEnds i s (execWrReg r v s) := by
  unfold execWrReg
  split
  · exact badOperand_ends s
  · exact tested_ends

theorem execRdDiag_ends (k : U32) (s : State) : CommandEnds i s (execRdDiag k s) := by
  unfold execRdDiag
  split
  · exact indexOutOfRange_ends s
  · exact .ok

/-! ## Every command -/

/-- Every host command ends in one of the ways of `CommandEnds`. -/
theorem exec_ends (h : isHostCommand i = true) (s : State) : CommandEnds i s (exec i s) := by
  cases i with
  | crcInit => exact .ok
  | crcSet v => exact tested_ends
  | crcBit d => exact tested_ends
  | crcUpdate b => exact tested_ends
  | crcCompute a len => exact tested_ends
  | decode n => exact execDecode_ends n s
  | encode cap opts => exact execEncode_ends cap opts s
  | release => exact .ok
  | append a len => exact execAppend_ends a len s
  | find t => exact findAnswer_ends t s
  | removeLast => exact execRemoveLast_ends s
  | sort => exact .ok
  | findNeighbor j t => exact execFindNeighbor_ends j t s
  | rdCat j => exact execRdCat_ends j s
  | strAdd j a len => exact execStrAdd_ends j a len s
  | strById j k => exact execStrById_ends j k s
  | strFind j a len => exact execStrFind_ends j a len s
  | rdReg r => exact execRdReg_ends r s
  | wrReg r v => exact execWrReg_ends r v s
  | rdDiag k => exact execRdDiag_ends k s
  | preamble | stdconfig | strings | datatypes | general | fmmu | syncm | txpdo | rxpdo | dclock | endMark | unknown =>
    exact absurd h Bool.false_ne_true

end

/-- The three ways of 00_scope.md R10, as the statement O57 writes them. -/
theorem CommandEnds.three_ways {i : Instr} {s : State} {o : Out} (h : CommandEnds i s o) :
    ∃ t, o = .next t ∧ t.rsp.status = t.status ∧
      (t.status = 0 ∨
        (t.status ∈ decodeErrorCodes ∧ (∃ n, i = .decode n) ∨
          t.status ∈ encodeErrorCodes ∧ (∃ cap opts, i = .encode cap opts)) ∧ t.err.code = t.status ∨
        t.status ∈ refusalCodes ∧
          t = { s with status := t.status, rsp := { status := t.status, val0 := 0, val1 := 0, result := .none } }) := by
  cases h with
  | ok => exact ⟨_, rfl, rfl, .inl rfl⟩
  | refused hc => exact ⟨_, rfl, rfl, .inr (.inr ⟨hc, rfl⟩)⟩
  | decodeFailed hi hc => exact ⟨_, rfl, rfl, .inr (.inl ⟨.inl ⟨hc, hi⟩, rfl⟩)⟩
  | encodeFailed hi hc => exact ⟨_, rfl, rfl, .inr (.inl ⟨.inr ⟨hc, hi⟩, rfl⟩)⟩

/-- Settles O57: a wire instruction answers a next state, and a host command ends as `exec_ends` says. -/
theorem everyCommandEndsInOneOfThreeWays : Obligations.EveryCommandEndsInOneOfThreeWays := by
  intro i s
  by_cases h : isHostCommand i = true
  · obtain ⟨t, ht, hways⟩ := (exec_ends h s).three_ways
    exact ⟨t, ht, fun _ => hways⟩
  · obtain ⟨t, ht⟩ := execWire_next i s
    exact ⟨t, (execWire_eq_exec (by simpa using h) s).symm.trans ht, fun hc => absurd hc h⟩

end Sys2Proof.Machine
end

section
/-! SUPPORT. What a codec answers: a payload of its own type, within the bounds of 10_state.md R49 (a) to (d). -/

namespace Sys2Proof.Machine

/-- The payload `v` may stand in a node of type `t` (10_state.md R49 a, c, d). -/
def PayloadAgrees (t : U16) (v : Payload) : Prop := payloadType v = t ∧ payloadBounded v = true

theorem decodeStringList_bounded {n : Nat} {b : Bytes} {strs : List Bytes} (h : decodeStringList n b = some strs) :
    strs.length = n ∧ ∀ x ∈ strs, x.length ≤ 255 := by
  induction n generalizing b strs with
  | zero => cases h; simp
  | succ n ih =>
    cases b with
    | nil => cases h
    | cons l rest =>
      simp only [decodeStringList] at h
      split at h
      · split at h <;> cases h
        next tail htail =>
          obtain ⟨hlen, hall⟩ := ih htail
          have hl := l.isLt
          have hhead : (rest.take l.toNat).length ≤ 255 := by rw [List.length_take]; omega
          exact ⟨by rw [List.length_cons, hlen], List.forall_mem_cons.mpr ⟨hhead, hall⟩⟩
      · cases h

theorem decodeStrings_agrees {p : Bytes} {v : Payload} (h : decodeStrings p = some v) : PayloadAgrees 10 v := by
  cases p with
  | nil => cases h
  | cons n rest =>
    simp only [decodeStrings] at h
    split at h <;> cases h
    next strs hstrs =>
      obtain ⟨hlen, hall⟩ := decodeStringList_bounded hstrs
      have hn := n.isLt
      have hcount : strs.length ≤ 255 := by omega
      exact ⟨rfl, by simpa [payloadBounded, hcount] using hall⟩

theorem decodeGeneral_agrees {p : Bytes} {v : Payload} (h : decodeGeneral p = some v) : PayloadAgrees 30 v := by
  unfold decodeGeneral at h
  split at h <;> cases h
  exact ⟨rfl, rfl⟩

theorem decodeFmmu_agrees {p : Bytes} {v : Payload} (h : decodeFmmu p = some v) : PayloadAgrees 40 v := by
  unfold decodeFmmu at h
  split at h <;> cases h
  exact ⟨rfl, rfl⟩

theorem decodeSyncM_agrees {p : Bytes} {v : Payload} (h : decodeSyncM p = some v) : PayloadAgrees 41 v := by
  unfold decodeSyncM at h
  split at h <;> cases h
  exact ⟨rfl, rfl⟩

theorem decodePdoEntries_length {n : Nat} {b : Bytes} {es : List PdoEntry} (h : decodePdoEntries n b = some es) :
    es.length = n := by
  fun_induction decodePdoEntries n b generalizing es with
  | case1 => cases h; rfl
  | case2 n _ _ _ _ _ _ _ _ rest tail htail ih => cases h; rw [List.length_cons, ih htail]
  | case3 => cases h
  | case4 => cases h

theorem decodePdo_some {dir : PdoDir} {p : Bytes} {v : Payload} (h : decodePdo dir p = some v) :
    ∃ d, v = .pdo d ∧ d.dir = dir ∧ d.entries.length ≤ 255 := by
  unfold decodePdo at h
  split at h
  · split at h <;> cases h
    next n _ _ _ _ _ _ es hes =>
      have hn := n.isLt
      have hlen : es.length ≤ 255 := by rw [decodePdoEntries_length hes]; omega
      exact ⟨_, rfl, rfl, hlen⟩
  · cases h

theorem decodeTxPdo_agrees {p : Bytes} {v : Payload} (h : decodePdo .tx p = some v) : PayloadAgrees 50 v := by
  obtain ⟨d, rfl, hdir, hlen⟩ := decodePdo_some h
  exact ⟨by simp [payloadType, hdir], by simpa [payloadBounded] using hlen⟩

theorem decodeRxPdo_agrees {p : Bytes} {v : Payload} (h : decodePdo .rx p = some v) : PayloadAgrees 51 v := by
  obtain ⟨d, rfl, hdir, hlen⟩ := decodePdo_some h
  exact ⟨by simp [payloadType, hdir], by simpa [payloadBounded] using hlen⟩

theorem decodeDClock_agrees {p : Bytes} {v : Payload} (h : decodeDClock p = some v) : PayloadAgrees 60 v := by
  unfold decodeDClock at h
  split at h <;> cases h
  exact ⟨rfl, rfl⟩

/-- What the codec of type `t` answers may stand in a node of type `t`. -/
theorem decodePayload_agrees {t : U16} {p : Bytes} {v : Payload} (h : decodePayload t p = some v) :
    PayloadAgrees t v := by
  unfold decodePayload at h
  split at h
  next ht => exact BitVec.eq_of_toNat_eq (y := 10) ht ▸ decodeStrings_agrees h
  next ht => exact BitVec.eq_of_toNat_eq (y := 30) ht ▸ decodeGeneral_agrees h
  next ht => exact BitVec.eq_of_toNat_eq (y := 40) ht ▸ decodeFmmu_agrees h
  next ht => exact BitVec.eq_of_toNat_eq (y := 41) ht ▸ decodeSyncM_agrees h
  next ht => exact BitVec.eq_of_toNat_eq (y := 50) ht ▸ decodeTxPdo_agrees h
  next ht => exact BitVec.eq_of_toNat_eq (y := 51) ht ▸ decodeRxPdo_agrees h
  next ht => exact BitVec.eq_of_toNat_eq (y := 60) ht ▸ decodeDClock_agrees h
  next => cases h

theorem appendPayload_agrees {t : U16} {p : Bytes} {v : Payload} (h : appendPayload t p = some v) :
    PayloadAgrees t v := by
  unfold appendPayload at h
  split at h
  next ht => cases h; exact ⟨ht.symm, rfl⟩
  next => exact decodePayload_agrees h

/-- The node a section of `n` payload bytes makes (10_state.md R49 a to d). -/
theorem nodeWf_of_agrees {t : U16} {n : Nat} {v : Payload} (hv : PayloadAgrees t v) (heven : n % 2 = 0)
    (hmax : n ≤ 131070) : nodeWf { type := t, sizeBytes := n, payload := v } = true := by
  obtain ⟨htype, hbounded⟩ := hv
  simp [nodeWf, htype, heven, hbounded, Config.maxPayload, hmax]

/-- A string more keeps a node's type and size (42_registry.md R182). -/
theorem nodeWf_addString {x : Bytes} {c : Category} (hc : nodeWf c = true) (ht : c.type = 10) (hx : x.length ≤ 255)
    (hroom : (payloadStrings c.payload).length ≠ 255) : nodeWf (addString x c) = true := by
  simp only [nodeWf, Bool.and_eq_true, beq_iff_eq, decide_eq_true_eq] at hc ⊢
  obtain ⟨⟨⟨-, heven⟩, hmax⟩, hbounded⟩ := hc
  refine ⟨⟨⟨ht, heven⟩, hmax⟩, ?_⟩
  cases hp : c.payload with
  | strings strs =>
    simp only [hp, payloadBounded, payloadStrings, Bool.and_eq_true, decide_eq_true_eq, List.all_eq_true] at hbounded hroom
    obtain ⟨hcount, hall⟩ := hbounded
    have hlen : strs.length + 1 ≤ 255 := by omega
    simp only [addString, hp, payloadStrings, payloadBounded, List.length_append, List.length_singleton, hlen,
      decide_true, Bool.true_and, List.all_eq_true, decide_eq_true_eq]
    exact List.forall_mem_append.mpr ⟨hall, List.forall_mem_singleton.mpr hx⟩
  | _ => simp [addString, hp, payloadStrings, payloadBounded, hx]

end Sys2Proof.Machine
end

section
/-! SUPPORT. The state invariant (10_state.md R49) clause by clause, and that the ways a command can end keep it. -/

namespace Sys2Proof.Machine

/-- The clauses of `stateInv` as propositions with names. -/
structure Invariant (s : State) : Prop where
  nodes : ∀ c ∈ s.cats, nodeWf c = true
  catRoom : withinCap s.config.catCap s.cats.length = true
  diagnostics : ∀ d ∈ s.diags, d.code ∈ diagCodes
  diagRoom : withinCap s.config.diagCap s.diags.length = true
  out : outInv s = true
  walk : walkInv s = true
  inCanonical : Memory.wf inUnlisted s.input = true
  outCanonical : Memory.wf outUnlisted s.out = true
  status : s.status ∈ statusCodes
  response : s.rsp.status = s.status

theorem stateInv_iff (s : State) : stateInv s = true ↔ Invariant s := by
  simp only [stateInv, catsInv, diagInv, busInv, Bool.and_eq_true, List.all_eq_true, List.contains_iff_mem, beq_iff_eq]
  constructor
  · rintro ⟨⟨⟨⟨⟨hn, hc⟩, hd, hr⟩, ho⟩, hw⟩, ⟨⟨hi, hm⟩, hs⟩, hp⟩
    exact ⟨hn, hc, hd, hr, ho, hw, hi, hm, hs, hp⟩
  · rintro ⟨hn, hc, hd, hr, ho, hw, hi, hm, hs, hp⟩
    exact ⟨⟨⟨⟨⟨hn, hc⟩, hd, hr⟩, ho⟩, hw⟩, ⟨⟨hi, hm⟩, hs⟩, hp⟩

/-! ## Capacities -/

theorem withinCap_zero (cap : Option Nat) : withinCap cap 0 = true := by cases cap <;> simp [withinCap]

theorem withinCap_of_le {cap : Option Nat} {m n : Nat} (h : withinCap cap n = true) (hle : m ≤ n) :
    withinCap cap m = true := by
  cases cap with
  | none => rfl
  | some c => simp only [withinCap, decide_eq_true_eq] at h ⊢; omega

/-- One element more fits in a list that is not at its capacity. -/
theorem withinCap_succ {cap : Option Nat} {n : Nat} (h : withinCap cap n = true) (hne : cap ≠ some n) :
    withinCap cap (n + 1) = true := by
  cases cap with
  | none => rfl
  | some c =>
    have : c ≠ n := fun e => hne (e ▸ rfl)
    simp only [withinCap, decide_eq_true_eq] at h ⊢
    omega

/-! ## Status codes -/

theorem mem_statusCodes_of_decodeError {b : Byte} (h : b ∈ decodeErrorCodes) : b ∈ statusCodes := by
  simp [statusCodes, h]

theorem mem_statusCodes_of_encodeError {b : Byte} (h : b ∈ encodeErrorCodes) : b ∈ statusCodes := by
  simp [statusCodes, h]

theorem mem_statusCodes_of_refusal {b : Byte} (h : b ∈ refusalCodes) : b ∈ statusCodes := by
  simp [statusCodes, h]

/-! ## The cursor, phase by phase (10_state.md R49 h) -/

theorem walkInv_preamble {s : State} (hp : s.w.phase = .preamble) :
    walkInv s = true ↔ s.w.pos = 0 ∧ s.w.limit.toNat ≤ s.config.inCap.toNat := by simp [walkInv, hp]

theorem walkInv_stdConfig {s : State} (hp : s.w.phase = .stdConfig) :
    walkInv s = true ↔ s.w.pos = 16 ∧ 16 ≤ s.w.limit.toNat ∧ s.w.limit.toNat ≤ s.config.inCap.toNat := by
  simp [walkInv, hp, and_assoc]

theorem walkInv_inSection {s : State} (hp : s.w.phase = .inSection) :
    walkInv s = true ↔
      128 ≤ s.w.pos.toNat ∧ s.w.pos.toNat ≤ s.w.limit.toNat ∧ s.w.limit.toNat ≤ s.config.inCap.toNat := by
  simp [walkInv, hp, and_assoc]

theorem walkInv_terminal {s : State} (hp : s.w.phase = .terminal) : walkInv s = true ↔ 130 ≤ s.w.pos.toNat := by
  simp [walkInv, hp]

/-! ## Reset -/

/-- The invariant holds right after reset, whatever the parameters and whatever IN holds (10_state.md R48). -/
theorem invariant_resetWith (c : Config) : Invariant (State.resetWith c) where
  nodes := List.forall_mem_nil _
  catRoom := withinCap_zero _
  diagnostics := List.forall_mem_nil _
  diagRoom := withinCap_zero _
  out := rfl
  walk := rfl
  inCanonical := rfl
  outCanonical := rfl
  status := List.mem_cons_self
  response := rfl

theorem Invariant.resetEvent {s : State} (h : Invariant s) : Invariant (resetEvent s) :=
  { invariant_resetWith s.config with inCanonical := h.inCanonical }

/-- Settles O60: the invariant holds of the reset state of every parameter set. -/
theorem stateInvariantHoldsAtReset : Obligations.StateInvariantHoldsAtReset :=
  ⟨(stateInv_iff _).mpr (invariant_resetWith _), fun c => (stateInv_iff _).mpr (invariant_resetWith c)⟩

/-! ## Ending a command -/

theorem Invariant.finish {s : State} (h : Invariant s) (v0 v1 : U32) (r : Result) : Invariant (finish v0 v1 r s) :=
  { h with status := List.mem_cons_self, response := rfl }

theorem Invariant.refuse {s : State} (h : Invariant s) {c : Code} (hc : codeByte c ∈ refusalCodes) :
    Invariant (refuse c s) :=
  { h with status := mem_statusCodes_of_refusal hc, response := rfl }

/-- A fatal error of DECODE leaves no image and no diagnostics, so only IN matters (44_walker.md R274). -/
theorem invariant_raiseDecode {c : Code} {t : U16} {p : U32} {s : State} (hc : codeByte c ∈ decodeErrorCodes)
    (hin : Memory.wf inUnlisted s.input = true) : Invariant (raiseDecode c t p s) where
  nodes := List.forall_mem_nil _
  catRoom := withinCap_zero _
  diagnostics := List.forall_mem_nil _
  diagRoom := withinCap_zero _
  out := rfl
  walk := rfl
  inCanonical := hin
  outCanonical := rfl
  status := mem_statusCodes_of_decodeError hc
  response := rfl

/-! ## The image -/

theorem Invariant.withCats {s : State} (h : Invariant s) {cs : List Category} (hn : ∀ c ∈ cs, nodeWf c = true)
    (hlen : withinCap s.config.catCap cs.length = true) : Invariant { s with cats := cs } :=
  { h with nodes := hn, catRoom := hlen }

theorem Invariant.catsAppend {s : State} (h : Invariant s) {c : Category} (hc : nodeWf c = true)
    (hroom : s.config.catCap ≠ some s.cats.length) : Invariant (catsAppend c s) := by
  refine h.withCats (List.forall_mem_append.mpr ⟨h.nodes, List.forall_mem_singleton.mpr hc⟩) ?_
  simpa using withinCap_succ h.catRoom hroom

theorem Invariant.withDiagnostic {s : State} (h : Invariant s) {d : ErrRec} (hd : d.code ∈ diagCodes)
    (hroom : s.config.diagCap ≠ some s.diags.length) : Invariant { s with diags := s.diags ++ [d] } :=
  { h with
    diagnostics := List.forall_mem_append.mpr ⟨h.diagnostics, List.forall_mem_singleton.mpr hd⟩
    diagRoom := by simpa using withinCap_succ h.diagRoom hroom }

theorem Invariant.emptyImage {s : State} (h : Invariant s) : Invariant (emptyImage s) :=
  { h with nodes := List.forall_mem_nil _, catRoom := withinCap_zero _, out := rfl, outCanonical := rfl }

theorem Invariant.withWalker {s : State} (h : Invariant s) {w : Walker} (hw : walkInv { s with w := w } = true) :
    Invariant { s with w := w } :=
  { h with walk := hw }

/-- DECODE's start puts the cursor on the preamble of an input within IN_CAP (44_walker.md R261). -/
theorem Invariant.startDecode {s : State} (h : Invariant s) {n : U32} (hn : n.toNat ≤ s.config.inCap.toNat) :
    Invariant (startDecode n s) :=
  { h with
    nodes := List.forall_mem_nil _
    catRoom := withinCap_zero _
    diagnostics := List.forall_mem_nil _
    diagRoom := withinCap_zero _
    out := rfl
    walk := (walkInv_preamble rfl).mpr ⟨rfl, hn⟩
    outCanonical := rfl }

/-! ## Sorting (42_registry.md R175) -/

theorem insertByType_eq_orderedInsert (c : Category) (cs : List Category) :
    insertByType c cs = cs.orderedInsert (fun x y => x.type.toNat ≤ y.type.toNat) c := by
  induction cs with
  | nil => rfl
  | cons d ds ih => rw [insertByType, List.orderedInsert_cons, ih]

theorem sortByType_eq_insertionSort (cs : List Category) :
    sortByType cs = cs.insertionSort (fun x y => x.type.toNat ≤ y.type.toNat) := by
  induction cs with
  | nil => rfl
  | cons c cs ih => rw [sortByType, List.insertionSort_cons, ih, insertByType_eq_orderedInsert]

theorem sortByType_perm (cs : List Category) : (sortByType cs).Perm cs :=
  sortByType_eq_insertionSort cs ▸ List.perm_insertionSort _ cs

end Sys2Proof.Machine
end

section
/-! SUPPORT. The reset table (10_state.md R48), and that the empty image does not encode (60_exceptions.md R335). -/

namespace Sys2Proof.Machine

/-- The checksum of the all-zero preamble is not 0 (60_exceptions.md R335). -/
theorem crcFold_empty_preamble : crcFold Config.crcSeed (encodePreamble Preamble.empty) ≠ 0 := by decide +kernel

/-- ENCODE right after reset, with room for the declared EEPROM size, ends at the checksum (60_exceptions.md R335). -/
theorem encode_reset : exec (.encode 128 0) State.reset =
    .next (raiseEncode .checksumInconsistent 0 14 (startEncode 0 State.reset)) := by
  have hcrc : preambleStep (startEncode 0 State.reset) =
      .error (raiseEncode .checksumInconsistent 0 14 (startEncode 0 State.reset)) := if_neg crcFold_empty_preamble
  have hsteps : encodeSteps 128 (startEncode 0 State.reset) =
      .error (raiseEncode .checksumInconsistent 0 14 (startEncode 0 State.reset)) := by
    have hcap : capacityStep 128 (startEncode 0 State.reset) = .ok (startEncode 0 State.reset) := rfl
    simp only [encodeSteps, hcap, hcrc, Except.bind]
  have haccepted : (decide ((128 : U32).toNat ≤ State.reset.config.outCapMax.toNat) && fits 0 3) = true := rfl
  have hopts : (0 : U32).setWidth 3 = 0 := rfl
  simp only [exec, execEncode, if_pos haccepted, hopts, hsteps]

/-- Settles O1: the table by evaluation, and ENCODE on the empty image by `encode_reset`. -/
theorem resetLeavesTheSpecValues : Obligations.ResetLeavesTheSpecValues :=
  fun _ => ⟨rfl, rfl, rfl, rfl, rfl, rfl, rfl, rfl, rfl, rfl, rfl, rfl, rfl, rfl, _, encode_reset, rfl⟩

end Sys2Proof.Machine
end

section
/-! SUPPORT. Everything one step of a walk can do, said once: its frame and the state invariant both follow
(44_walker.md R262 to R274). -/

namespace Sys2Proof.Machine

/-! ## What is fetched -/

theorem fetchItem_preamble_room {s : State} {i : Instr} (hp : s.w.phase = .preamble) (h : fetchItem s = .ok i) :
    16 ≤ s.w.limit.toNat := by
  rw [fetchItem_preamble hp] at h
  simp only [decode, decodeItem, memRead_length, Config.preBytes] at h
  split at h <;> cases h
  omega

/-- A section read at a descriptor boundary has a payload that `size_words` can express, inside the bytes left; the
terminator takes its two bytes. -/
theorem decodeSection_fits {b : Bytes} {i : Instr} (h : decodeSection b = .ok i) :
    (i = .endMark ∧ 2 ≤ b.length) ∨
      ∃ t p, i = sectionInstr t p ∧ p.length % 2 = 0 ∧ p.length ≤ 131070 ∧ 4 + p.length ≤ b.length := by
  unfold decodeSection at h
  split at h
  · cases h
  · split at h
    · cases h; exact .inl ⟨rfl, by omega⟩
    · split at h
      · cases h
      · split at h <;> cases h
        have hw := (rd16 b 2).isLt
        have hlen : ((b.drop 4).take (2 * (rd16 b 2).toNat)).length = 2 * (rd16 b 2).toNat := by
          rw [List.length_take, List.length_drop]; omega
        exact .inr ⟨_, _, rfl, by omega, by omega, by omega⟩

/-- The section `p` stands whole between the cursor and the end of the input (44_walker.md R264). -/
structure SectionAtCursor (p : Bytes) (w : Walker) : Prop where
  phase : w.phase = .inSection
  even : p.length % 2 = 0
  sized : p.length ≤ 131070
  fits : w.pos.toNat + (4 + p.length) ≤ w.limit.toNat

theorem fetchItem_inSection_fits {s : State} {i : Instr} (hp : s.w.phase = .inSection) (h : fetchItem s = .ok i) :
    (i = .endMark ∧ s.w.pos.toNat + 2 ≤ s.w.limit.toNat) ∨ ∃ t p, i = sectionInstr t p ∧ SectionAtCursor p s.w := by
  rw [fetchItem_inSection hp] at h
  obtain ⟨hi, hlen⟩ | ⟨t, p, hi, heven, hsized, hlen⟩ := decodeSection_fits h
  · rw [memRead_length] at hlen
    exact .inl ⟨hi, by omega⟩
  · rw [memRead_length] at hlen
    exact .inr ⟨t, p, hi, hp, heven, hsized, by omega⟩

/-- A section is stored by the codec of its type, or skipped with a diagnostic (44_walker.md R270). -/
theorem execWire_sectionInstr_cases (t : U16) (p : Bytes) (s : State) :
    execWire (sectionInstr t p) s = .next (storeSection t (decodePayload t p) p s) ∨
      ∃ c, codeByte c ∈ diagCodes ∧ execWire (sectionInstr t p) s = .next (skipSection c t p s) := by
  unfold sectionInstr
  split
  next h => obtain rfl : t = 10 := BitVec.eq_of_toNat_eq h; exact .inl rfl
  next h => obtain rfl : t = 20 := BitVec.eq_of_toNat_eq h; exact .inr ⟨.unimplementedCategory, by decide, rfl⟩
  next h => obtain rfl : t = 30 := BitVec.eq_of_toNat_eq h; exact .inl rfl
  next h => obtain rfl : t = 40 := BitVec.eq_of_toNat_eq h; exact .inl rfl
  next h => obtain rfl : t = 41 := BitVec.eq_of_toNat_eq h; exact .inl rfl
  next h => obtain rfl : t = 50 := BitVec.eq_of_toNat_eq h; exact .inl rfl
  next h => obtain rfl : t = 51 := BitVec.eq_of_toNat_eq h; exact .inl rfl
  next h => obtain rfl : t = 60 := BitVec.eq_of_toNat_eq h; exact .inl rfl
  next => exact .inr ⟨.unknownCategory, by decide, rfl⟩

/-! ## The frame of a walk -/

/-- What no step of a walk touches (10_state.md R22, R42; 20_memory.md R61). -/
structure WalkKeeps (s t : State) : Prop where
  crc : t.crc = s.crc := by rfl
  e : t.e = s.e := by rfl
  input : t.input = s.input := by rfl
  host : t.host = s.host := by rfl
  config : t.config = s.config := by rfl

theorem WalkKeeps.trans {s t u : State} (h : WalkKeeps s t) (k : WalkKeeps t u) : WalkKeeps s u where
  crc := k.crc.trans h.crc
  e := k.e.trans h.e
  input := k.input.trans h.input
  host := k.host.trans h.host
  config := k.config.trans h.config

/-! ## The effects of a step -/

/-- What one step of a walk standing at `s` can do. -/
inductive WalkEffect (s : State) : State → Prop
  | raised {c : Code} {t : U16} {p : U32} {u : State} (hc : codeByte c ∈ decodeErrorCodes) (hu : WalkKeeps s u) :
      WalkEffect s (raiseDecode c t p u)
  | preambleLoaded {r : Preamble} (hlimit : 16 ≤ s.w.limit.toNat) (hp : s.w.phase = .preamble) :
      WalkEffect s (enterStdConfig { s with pre := r })
  | preambleDiagnosed {r : Preamble} {d : ErrRec} (hlimit : 16 ≤ s.w.limit.toNat) (hp : s.w.phase = .preamble)
      (hd : d.code ∈ diagCodes) (hroom : s.config.diagCap ≠ some s.diags.length) :
      WalkEffect s (enterStdConfig { s with pre := r, diags := s.diags ++ [d] })
  | stdConfigLoaded {g : StdConfig} (hlimit : 128 ≤ s.w.limit.toNat) (hp : s.w.phase = .stdConfig) :
      WalkEffect s { s with cfg := g, w := { s.w with pos := 128, phase := .inSection } }
  | stored {t : U16} {p : Bytes} {v : Payload} (hp : SectionAtCursor p s.w) (hv : PayloadAgrees t v)
      (hroom : s.config.catCap ≠ some s.cats.length) : WalkEffect s (afterStored t p v s)
  | skipped {c : Byte} {t : U16} {p : Bytes} (hp : SectionAtCursor p s.w) (hc : c ∈ diagCodes)
      (hroom : s.config.diagCap ≠ some s.diags.length) : WalkEffect s (afterSkipped c t p s)
  | ended {v0 v1 : U32} {r : Result} (hp : s.w.phase = .inSection) (hfit : s.w.pos.toNat + 2 ≤ s.w.limit.toNat) :
      WalkEffect s (finish v0 v1 r { s with w := { s.w with pos := s.w.pos + 2, phase := .terminal } })

theorem fetchFailed_effect {s : State} {e : DecodeError} (he : e ≠ .badCommand) : WalkEffect s (fetchFailed e s) := by
  cases e with
  | badCommand => exact absurd rfl he
  | headerShort => exact .raised (by decide) {}
  | configShort => exact .raised (by decide) {}
  | noTypeWord => exact .raised (by decide) {}
  | noSizeWord t => exact .raised (by decide) {}
  | payloadShort t w => exact .raised (by decide) {}

theorem execPreamble_effect {p : Bytes} {s : State} (hp : s.w.phase = .preamble) (hlimit : 16 ≤ s.w.limit.toNat) :
    ∃ t, execPreamble p s = .next t ∧ WalkEffect s t := by
  unfold execPreamble
  split
  · exact ⟨_, rfl, .preambleLoaded hlimit hp⟩
  · refine ⟨_, rfl, ?_⟩
    obtain ⟨-, h⟩ | ⟨hroom, h⟩ := withDiag_cases .checksumInvalid 0 0 enterStdConfig
      { s with pre := loadPreamble p (checksumFlag p) }
    · exact h ▸ .raised (by decide) {}
    · exact h ▸ .preambleDiagnosed hlimit hp (by decide) hroom

theorem storeSection_effect {t : U16} {p : Bytes} {s : State} (hp : SectionAtCursor p s.w) :
    WalkEffect s (storeSection t (decodePayload t p) p s) := by
  obtain ⟨-, h⟩ | ⟨x, -, -, h⟩ | ⟨x, hx, hroom, h⟩ := storeSection_cases t (decodePayload t p) p s
  · exact h ▸ .raised (by decide) {}
  · exact h ▸ .raised (by decide) {}
  · exact h ▸ .stored hp (decodePayload_agrees hx) hroom

theorem skipSection_effect {c : Code} {t : U16} {p : Bytes} {s : State} (hc : codeByte c ∈ diagCodes)
    (hp : SectionAtCursor p s.w) : WalkEffect s (skipSection c t p s) := by
  obtain ⟨-, h⟩ | ⟨hroom, h⟩ := skipSection_cases c t p s
  · exact h ▸ .raised (by decide) {}
  · exact h ▸ .skipped hp hc hroom

theorem execWire_effect {s : State} {i : Instr} (hw : walking s.w.phase = true) (hf : fetchItem s = .ok i) :
    ∃ t, execWire i s = .next t ∧ WalkEffect s t := by
  cases hp : s.w.phase with
  | preamble =>
    obtain ⟨p, rfl⟩ := fetchItem_preamble_ok hp hf
    exact execPreamble_effect hp (fetchItem_preamble_room hp hf)
  | stdConfig =>
    obtain ⟨c, rfl, hlimit⟩ := fetchItem_stdConfig_ok hp hf
    exact ⟨_, rfl, .stdConfigLoaded hlimit hp⟩
  | inSection =>
    obtain ⟨rfl, hfit⟩ | ⟨t, p, rfl, hsec⟩ := fetchItem_inSection_fits hp hf
    · exact ⟨_, rfl, .ended hp hfit⟩
    · obtain h | ⟨c, hc, h⟩ := execWire_sectionInstr_cases t p s
      · exact ⟨_, h, storeSection_effect hsec⟩
      · exact ⟨_, h, skipSection_effect hc hsec⟩
  | idle | terminal | failed => simp [hp, walking] at hw

/-- Every step of a walk in progress is one of the effects above. -/
theorem walkStep_effect {s t : State} (hw : walking s.w.phase = true) (h : walkStep s = .next t) : WalkEffect s t := by
  cases hf : fetchItem s with
  | error e =>
    rw [walkStep_of_fetch_error hf] at h
    cases h
    exact fetchFailed_effect fun he => fetchItem_ne_badCommand s (he ▸ hf)
  | ok i =>
    obtain ⟨u, hu, heff⟩ := execWire_effect hw hf
    rw [walkStep_of_fetched hf, hu] at h
    cases h
    exact heff

/-! ## What they keep -/

theorem WalkEffect.keeps {s t : State} (h : WalkEffect s t) : WalkKeeps s t := by
  cases h with
  | raised hc hu => exact hu.trans {}
  | preambleLoaded | preambleDiagnosed | stdConfigLoaded | stored | skipped | ended => exact {}

theorem walkedPast_walkInv {t : U16} {p : Bytes} {s : State} (h : walkInv s = true) (hp : SectionAtCursor p s.w) :
    walkInv { s with w := walkedPast t p s.w } = true := by
  obtain ⟨hlow, -, hcap⟩ := (walkInv_inSection hp.phase).mp h
  have hpos := walkedPast_pos_toNat (t := t) hp.fits
  have hlow' : 128 ≤ s.w.pos.toNat + (4 + p.length) := by omega
  exact (walkInv_inSection (s := { s with w := walkedPast t p s.w }) hp.phase).mpr
    ⟨hlow'.trans hpos.ge, hpos.le.trans hp.fits, hcap⟩

/-- The cursor does not wrap around behind the terminator (44_walker.md R272). -/
theorem ended_walkInv {s : State} (h : walkInv s = true) (hp : s.w.phase = .inSection)
    (hfit : s.w.pos.toNat + 2 ≤ s.w.limit.toNat) :
    walkInv { s with w := { s.w with pos := s.w.pos + 2, phase := .terminal } } = true := by
  obtain ⟨hlow, -, -⟩ := (walkInv_inSection hp).mp h
  have hlimit := s.w.limit.isLt
  have hpos : (s.w.pos + 2).toNat = s.w.pos.toNat + 2 := BitVec.toNat_add_of_lt (show s.w.pos.toNat + 2 < 2 ^ 32 by omega)
  exact (walkInv_terminal rfl).mpr ((Nat.add_le_add_right hlow 2).trans hpos.ge)

/-- One step of a walk keeps the state invariant. -/
theorem WalkEffect.invariant {s t : State} (heff : WalkEffect s t) (h : Invariant s) : Invariant t := by
  have hwalk := h.walk
  cases heff with
  | raised hc hu => exact invariant_raiseDecode hc (hu.input ▸ h.inCanonical)
  | preambleLoaded hlimit hp =>
    obtain ⟨-, hcap⟩ := (walkInv_preamble hp).mp hwalk
    exact { h with walk := (walkInv_stdConfig rfl).mpr ⟨rfl, hlimit, hcap⟩ }
  | preambleDiagnosed hlimit hp hd hroom =>
    obtain ⟨-, hcap⟩ := (walkInv_preamble hp).mp hwalk
    exact { h.withDiagnostic hd hroom with walk := (walkInv_stdConfig rfl).mpr ⟨rfl, hlimit, hcap⟩ }
  | stdConfigLoaded hlimit hp =>
    obtain ⟨-, -, hcap⟩ := (walkInv_stdConfig hp).mp hwalk
    exact { h with walk := (walkInv_inSection rfl).mpr ⟨Nat.le_refl 128, hlimit, hcap⟩ }
  | stored hp hv hroom =>
    exact { h.catsAppend (nodeWf_of_agrees hv hp.even hp.sized) hroom with walk := walkedPast_walkInv hwalk hp }
  | skipped hp hc hroom =>
    exact { h.withDiagnostic hc hroom with walk := walkedPast_walkInv hwalk hp }
  | ended hp hfit =>
    exact (h.withWalker (ended_walkInv hwalk hp hfit)).finish _ _ _

/-! ## The DECODE command -/

theorem runWalk_keeps_frame {k : Nat} {s t : State} (h : runWalk k s = .next t) : WalkKeeps s t :=
  runWalk_keeps (WalkKeeps s) (fun _ _ hk hw hs => hk.trans (walkStep_effect hw hs).keeps) {} h

theorem runWalk_keeps_invariant {k : Nat} {s t : State} (hs : Invariant s) (h : runWalk k s = .next t) : Invariant t :=
  runWalk_keeps Invariant (fun _ _ hi hw hs => (walkStep_effect hw hs).invariant hi) hs h

end Sys2Proof.Machine
end

section
/-! SUPPORT. What ENCODE has written at each of its steps: the bytes below the cursor and no others, inside the
capacity (20_memory.md R62; 45_writer.md R301 to R304). -/

namespace Sys2Proof.Machine

/-! ## The frame of ENCODE -/

/-- What no step of ENCODE touches (45_writer.md R290, R305). -/
structure EncodeKeeps (s t : State) : Prop where
  crc : t.crc = s.crc := by rfl
  pre : t.pre = s.pre := by rfl
  cfg : t.cfg = s.cfg := by rfl
  cats : t.cats = s.cats := by rfl
  diags : t.diags = s.diags := by rfl
  w : t.w = s.w := by rfl
  input : t.input = s.input := by rfl
  host : t.host = s.host := by rfl
  config : t.config = s.config := by rfl

theorem EncodeKeeps.trans {s t u : State} (h : EncodeKeeps s t) (k : EncodeKeeps t u) : EncodeKeeps s u where
  crc := k.crc.trans h.crc
  pre := k.pre.trans h.pre
  cfg := k.cfg.trans h.cfg
  cats := k.cats.trans h.cats
  diags := k.diags.trans h.diags
  w := k.w.trans h.w
  input := k.input.trans h.input
  host := k.host.trans h.host
  config := k.config.trans h.config

theorem EncodeKeeps.raiseEncode {s u : State} (h : EncodeKeeps s u) (c : Code) (t : U16) (p : U32) :
    EncodeKeeps s (raiseEncode c t p u) :=
  h.trans {}

/-- A part of ENCODE, started in `s`, that goes on only in states with `Q`, and stops only with the frame kept. -/
inductive Leads (s : State) (Q : State → Prop) : Except State State → Prop
  | ok {t : State} (h : Q t) : Leads s Q (.ok t)
  | error {t : State} (h : EncodeKeeps s t) : Leads s Q (.error t)

theorem Leads.bind {s : State} {Q R : State → Prop} {x : Except State State} {f : State → Except State State}
    (hx : Leads s Q x) (hf : ∀ u, Q u → Leads s R (f u)) : Leads s R (x.bind f) := by
  cases hx with
  | ok h => exact hf _ h
  | error h => exact .error h

/-! ## Writing at the end of what is written -/

theorem map_fst_cellsOf_outUnlisted (a : Nat) (b : Bytes) :
    (cellsOf outUnlisted a b).map (·.1) = List.range' a b.length := by
  induction b generalizing a with
  | nil => rfl
  | cons y b ih => simp [cellsOf, outUnlisted, List.range'_succ, ← ih (a + 1)]

/-- Bytes written right behind the listed ones extend the list. -/
theorem map_fst_writeBlock_end {m : Memory} {n : Nat} (h : m.map (·.1) = List.range n) (b : Bytes) :
    (writeBlock outUnlisted n b m).map (·.1) = List.range (n + b.length) := by
  have hlt : ∀ c ∈ m, c.1 < n := fun c hc => List.mem_range.mp (h ▸ List.mem_map_of_mem hc)
  have hbelow : m.filter (fun c => decide (c.1 < n)) = m :=
    List.filter_eq_self.mpr fun c hc => decide_eq_true (hlt c hc)
  have habove : m.filter (fun c => decide (n + b.length ≤ c.1)) = [] :=
    List.filter_eq_nil_iff.mpr fun c hc => by have := hlt c hc; simp only [decide_eq_true_eq]; omega
  rw [writeBlock, hbelow, habove, List.append_nil, List.map_append, h, map_fst_cellsOf_outUnlisted,
    List.range_eq_range', List.range_eq_range']
  simpa using List.range'_append (s := 0) (m := n) (n := b.length) (step := 1)

/-- ENCODE, started in `s`, has written the bytes `[0, E.wpos)` of OUT and no others: at least `lo` of them, and at most
`cap`. -/
structure Written (s : State) (lo : Nat) (cap : U32) (u : State) : Prop where
  keeps : EncodeKeeps s u
  addresses : u.out.map (·.1) = List.range u.e.wpos.toNat
  canonical : Memory.wf outUnlisted u.out = true
  least : lo ≤ u.e.wpos.toNat
  below : u.e.wpos.toNat ≤ cap.toNat

theorem Written.mono {s u : State} {lo lo' : Nat} {cap : U32} (h : Written s lo cap u) (hle : lo' ≤ lo) :
    Written s lo' cap u :=
  { h with least := hle.trans h.least }

theorem Written.writeUnit {s u : State} {lo : Nat} {cap : U32} {b : Bytes} (h : Written s lo cap u)
    (hfit : u.e.wpos.toNat + b.length ≤ cap.toNat) : Written s (lo + b.length) cap (writeUnit b u) := by
  have hcap := cap.isLt
  have hwpos := writeUnit_wpos_toNat (b := b) (s := u) (by omega)
  have hleast := h.least
  refine ⟨h.keeps.trans {}, ?_, wf_writeBlock (by simp only [spaceSize]; omega) h.canonical, by omega, by omega⟩
  rw [hwpos]
  exact map_fst_writeBlock_end h.addresses b

/-! ## The header blocks -/

@[simp] theorem encodePreamble_length (r : Preamble) : (encodePreamble r).length = 16 := rfl

@[simp] theorem encodeStdConfig_length (g : StdConfig) : (encodeStdConfig g).length = 112 := by
  simp [encodeStdConfig]

/-- The declared EEPROM size is at least 128 bytes, so a capacity that holds it holds both header blocks
(41_header_codecs.md R156, 45_writer.md R292). -/
theorem capacityStep_leads {s u : State} (h : EncodeKeeps s u) (cap : U32) :
    Leads s (fun v => v = u ∧ 128 ≤ cap.toNat) (capacityStep cap u) := by
  unfold capacityStep
  split
  · exact .error (h.raiseEncode _ _ _)
  next hc => exact .ok ⟨rfl, by simp only [eepromBytes] at hc; omega⟩

theorem preambleStep_leads {s u : State} (h : EncodeKeeps s u) :
    Leads s (fun v => v = writeUnit (encodePreamble u.pre) u) (preambleStep u) := by
  unfold preambleStep
  split
  · exact .ok rfl
  · exact .error (h.raiseEncode _ _ _)

theorem written_headers (s : State) (opts : BitVec 3) {cap : U32} (hcap : 128 ≤ cap.toNat) :
    Written s 128 cap (stdConfigStep (writeUnit (encodePreamble s.pre) (startEncode opts s))) := by
  have hstart : Written s 0 cap (startEncode opts s) := ⟨{}, rfl, rfl, Nat.zero_le _, Nat.zero_le _⟩
  have hpre := hstart.writeUnit (b := encodePreamble s.pre) ((by omega : 0 + 16 ≤ cap.toNat))
  have hcfg := hpre.writeUnit (b := encodeStdConfig s.cfg) (by simpa using hcap)
  exact hcfg.mono (by simp)

/-! ## The sections and the terminator -/

theorem categoryStep_leads {s u : State} {cap : U32} (h : Written s 128 cap u) (k : Nat) (c : Category) :
    Leads s (Written s 128 cap) (categoryStep cap k c u) := by
  obtain ⟨v, rfl, hcases⟩ := categoryStep_cases cap k c u
  have hv : Written s 128 cap { u with e := { u.e with idx := k } } := { h with keeps := h.keeps.trans {} }
  obtain ⟨-, e⟩ | ⟨-, ⟨-, e⟩ | ⟨-, -, e⟩ | ⟨-, -, -, e⟩ | ⟨-, -, hfit, e⟩⟩ := hcases
  · exact e ▸ .ok hv
  · exact e ▸ .error (hv.keeps.raiseEncode _ _ _)
  · exact e ▸ .error (hv.keeps.raiseEncode _ _ _)
  · exact e ▸ .error (hv.keeps.raiseEncode _ _ _)
  · exact e ▸ .ok ((hv.writeUnit hfit).mono (Nat.le_add_right _ _))

theorem categorySteps_leads {s u : State} {cap : U32} (h : Written s 128 cap u) (k : Nat) (cs : List Category) :
    Leads s (Written s 128 cap) (categorySteps cap k cs u) := by
  induction cs generalizing k u with
  | nil => exact .ok h
  | cons c cs ih =>
    rw [categorySteps_cons]
    exact (categoryStep_leads h k c).bind fun v hv => ih hv (k + 1)

/-- What ENCODE leaves in OUT when it ends ok: at least the headers and the terminator, which stands last
(45_writer.md R302, R304). -/
structure ImageWritten (s : State) (cap : U32) (t : State) : Prop extends Written s 130 cap t where
  lastByte : outByte t.out (t.e.wpos.toNat - 1) = some 0xFF
  lastButOne : outByte t.out (t.e.wpos.toNat - 2) = some 0xFF

theorem terminatorStep_leads {s u : State} {cap : U32} (h : Written s 128 cap u) :
    Leads s (ImageWritten s cap) (terminatorStep cap u) := by
  unfold terminatorStep
  split
  · exact .error (h.keeps.raiseEncode _ _ _)
  next hroom =>
    have hfit : u.e.wpos.toNat + ([0xFF, 0xFF] : Bytes).length ≤ cap.toNat := by simpa [overflows] using hroom
    have hcap := cap.isLt
    have hwpos := writeUnit_wpos_toNat (b := [0xFF, 0xFF]) (s := u) (by omega)
    refine .ok { h.writeUnit hfit with lastByte := ?_, lastButOne := ?_ }
    all_goals rw [hwpos, outByte_writeUnit]; simp

/-- Every step of ENCODE after its start. -/
theorem encodeSteps_leads (cap : U32) (opts : BitVec 3) (s : State) :
    Leads s (ImageWritten s cap) (encodeSteps cap (startEncode opts s)) := by
  refine (capacityStep_leads {} cap).bind ?_
  rintro _ ⟨rfl, hcap⟩
  refine (preambleStep_leads {}).bind ?_
  rintro _ rfl
  exact (categorySteps_leads (written_headers s opts hcap) 0 _).bind fun u hu => terminatorStep_leads hu

/-! ## The invariant after ENCODE -/

theorem outInv_of_valid {s : State} (hv : s.outValid = true) :
    outInv s = true ↔ 130 ≤ s.outLen.toNat ∧ s.out.map (·.1) = List.range s.outLen.toNat ∧
      outByte s.out (s.outLen.toNat - 2) = some 0xFF ∧ outByte s.out (s.outLen.toNat - 1) = some 0xFF := by
  simp [outInv, hv, and_assoc]

/-- Of what ENCODE changes, the invariant constrains OUT, STATUS and the response. -/
theorem Invariant.of_encodeKeeps {s t : State} (h : Invariant s) (hk : EncodeKeeps s t) (hout : outInv t = true)
    (hcanonical : Memory.wf outUnlisted t.out = true) (hstatus : t.status ∈ statusCodes)
    (hresponse : t.rsp.status = t.status) : Invariant t where
  nodes := hk.cats ▸ h.nodes
  catRoom := by simpa only [hk.cats, hk.config] using h.catRoom
  diagnostics := hk.diags ▸ h.diagnostics
  diagRoom := by simpa only [hk.diags, hk.config] using h.diagRoom
  out := hout
  walk := by simpa only [walkInv, hk.w, hk.config] using h.walk
  inCanonical := hk.input ▸ h.inCanonical
  outCanonical := hcanonical
  status := hstatus
  response := hresponse

theorem Invariant.finishEncode {s t : State} {cap : U32} (h : Invariant s) (ht : ImageWritten s cap t) :
    Invariant (finishEncode t) :=
  h.of_encodeKeeps (ht.keeps.trans {}) ((outInv_of_valid rfl).mpr ⟨ht.least, ht.addresses, ht.lastButOne, ht.lastByte⟩)
    ht.canonical List.mem_cons_self rfl

theorem Invariant.encodeRaised {s t : State} (h : Invariant s) (hk : EncodeKeeps s t) (ht : EncodeRaised t) :
    Invariant t := by
  obtain ⟨c, ty, p, u, rfl, hc⟩ := ht
  exact h.of_encodeKeeps hk rfl rfl (mem_statusCodes_of_encodeError hc) rfl

end Sys2Proof.Machine
end

section
/-! SUPPORT. Everything a host command can do to the state, said once for each command: the frame of the commands and
the state invariant both follow. -/

namespace Sys2Proof.Machine

/-- What a host command executed in `s` can do: answer or refuse with the state untouched, write CRC or a register,
change CATS, release the image, or run DECODE or ENCODE. -/
inductive HostEffect (s : State) : Instr → Out → Prop
  | answered {i : Instr} {v0 v1 : U32} {r : Result} : HostEffect s i (.next (finish v0 v1 r s))
  | refused {i : Instr} {c : Code} (hc : codeByte c ∈ refusalCodes) : HostEffect s i (.next (refuse c s))
  | crcLoaded {i : Instr} {c : Byte} (hi : writesCrc i = true) : HostEffect s i (.next (setCrc c s))
  | registerWritten {r v : U32} {c : Byte} {p : Preamble} {g : StdConfig} (hp : p.csumValid = s.pre.csumValid) :
      HostEffect s (.wrReg r v) (.next (finish 0 0 .none { s with crc := c, pre := p, cfg := g }))
  | appended {a len v0 : U32} {c : Category} (hc : nodeWf c = true) (hroom : s.config.catCap ≠ some s.cats.length) :
      HostEffect s (.append a len) (.next (finish v0 0 .none (catsAppend c s)))
  | catsRewritten {i : Instr} {v0 : U32} {cs : List Category} (hi : writesCats i = true)
      (hn : (∀ c ∈ s.cats, nodeWf c = true) → ∀ c ∈ cs, nodeWf c = true) (hlen : cs.length ≤ s.cats.length) :
      HostEffect s i (.next (finish v0 0 .none { s with cats := cs }))
  | released :
      HostEffect s .release (.next (finish 0 0 .none { emptyImage s with w := { s.w with pos := 0, phase := .idle } }))
  | decoded {n : U32} {t : State} (hn : n.toNat ≤ s.config.inCap.toNat)
      (hrun : runWalk (walkBound n) (startDecode n s) = .next t) : HostEffect s (.decode n) (.next t)
  | encoded {cap opts : U32} {t : State} (ht : ImageWritten s cap t) :
      HostEffect s (.encode cap opts) (.next (finishEncode t))
  | encodeRaised {cap opts : U32} {t : State} (hk : EncodeKeeps s t) (ht : EncodeRaised t) :
      HostEffect s (.encode cap opts) (.next t)

section

variable {i : Instr}

theorem badOperand_effect (s : State) : HostEffect s i (.next (refuse .badOperand s)) := .refused (by decide)

theorem indexOutOfRange_effect (s : State) : HostEffect s i (.next (refuse .indexOutOfRange s)) := .refused (by decide)

/-- A command that reads, behind one operand test. -/
theorem tested_effect {s : State} {b : Bool} {v0 v1 : U32} {r : Result} :
    HostEffect s i (if b then .next (finish v0 v1 r s) else .next (refuse .badOperand s)) := by
  cases b with
  | true => exact .answered
  | false => exact badOperand_effect s

/-- A CRC command, behind its operand test. -/
theorem crc_effect {s : State} {b : Bool} {c : Byte} (hi : writesCrc i = true) :
    HostEffect s i (if b then .next (setCrc c s) else .next (refuse .badOperand s)) := by
  cases b with
  | true => exact .crcLoaded hi
  | false => exact badOperand_effect s

/-! ## DECODE and ENCODE -/

theorem execDecode_effect (n : U32) (s : State) : HostEffect s (.decode n) (execDecode n s) := by
  unfold execDecode
  split
  next hn =>
    obtain ⟨t, ht⟩ := runWalk_next (walkBound n) (startDecode n s)
    exact ht ▸ .decoded hn ht
  next => exact badOperand_effect s

theorem execEncode_effect (cap opts : U32) (s : State) : HostEffect s (.encode cap opts) (execEncode cap opts s) := by
  have hleads := encodeSteps_leads cap (opts.setWidth 3) s
  have hraised := encodeSteps_onlyRaises cap (startEncode (opts.setWidth 3) s)
  unfold execEncode
  split
  · generalize encodeSteps cap (startEncode (opts.setWidth 3) s) = x at hleads hraised
    cases hleads with
    | ok ht => exact .encoded ht
    | error hk => exact .encodeRaised hk (hraised _ rfl)
  · exact badOperand_effect s

/-! ## The registry -/

theorem appendSection_effect (a len : U32) (b : Bytes) (s : State) :
    HostEffect s (.append a len) (.next (appendSection b s)) := by
  unfold appendSection
  split
  · exact badOperand_effect s
  · split
    · exact badOperand_effect s
    · split
      · exact .refused (by decide)
      next hroom =>
        split
        · exact badOperand_effect s
        next v hv =>
          have hw := (rd16 b 2).isLt
          exact .appended (nodeWf_of_agrees (appendPayload_agrees hv) (by omega) (by omega))
            (fun e => hroom (atCapacity_iff.mpr e))

theorem execAppend_effect (a len : U32) (s : State) : HostEffect s (.append a len) (execAppend a len s) := by
  unfold execAppend
  split
  · exact appendSection_effect a len _ s
  · exact badOperand_effect s

theorem findAnswer_effect (t : U32) (s : State) : HostEffect s i (.next (findAnswer t s)) := by
  unfold findAnswer
  split
  · split <;> exact .answered
  · exact badOperand_effect s

theorem execRemoveLast_effect (s : State) : HostEffect s .removeLast (execRemoveLast s) := by
  unfold execRemoveLast
  split
  · exact .refused (by decide)
  · exact .catsRewritten rfl (fun hn c hc => hn c (List.mem_of_mem_dropLast hc)) (by simp)

theorem execSort_effect (s : State) : HostEffect s .sort (execSort s) :=
  .catsRewritten rfl (fun hn c hc => hn c ((sortByType_perm s.cats).mem_iff.mp hc)) (sortByType_perm s.cats).length_eq.le

theorem execFindNeighbor_effect (j t : U32) (s : State) : HostEffect s i (execFindNeighbor j t s) := by
  unfold execFindNeighbor
  split
  · exact findAnswer_effect t s
  · exact indexOutOfRange_effect s

theorem execRdCat_effect (j : U32) (s : State) : HostEffect s i (execRdCat j s) := by
  unfold execRdCat
  split
  · exact indexOutOfRange_effect s
  · exact .answered

/-! ## The string table -/

theorem stringNode_ok {j : U32} {s : State} {c : Category} (h : stringNode j s = .ok c) :
    c ∈ s.cats ∧ c.type = 10 := by
  unfold stringNode at h
  split at h
  · cases h
  next hget => split at h <;> cases h; exact ⟨List.mem_of_getElem? hget, ‹_›⟩

theorem execStrAdd_effect (j a len : U32) (s : State) : HostEffect s (.strAdd j a len) (execStrAdd j a len s) := by
  unfold execStrAdd
  split
  next h => exact .refused (stringNode_error h)
  next c h =>
    split
    next htest =>
      obtain ⟨hmem, htype⟩ := stringNode_ok h
      simp only [Bool.and_eq_true, decide_eq_true_eq, Bool.not_eq_true', beq_eq_false_iff_ne] at htest
      obtain ⟨⟨-, hlen⟩, hroom⟩ := htest
      refine .catsRewritten rfl (fun hn d hd => ?_) (by simp)
      obtain hd | rfl := List.mem_or_eq_of_mem_set hd
      · exact hn d hd
      · exact nodeWf_addString (hn c hmem) htype (by simpa [inOperand] using hlen) hroom
    next => exact badOperand_effect s

theorem execStrById_effect (j k : U32) (s : State) : HostEffect s i (execStrById j k s) := by
  unfold execStrById
  split
  next h => exact .refused (stringNode_error h)
  next => split <;> exact .answered

theorem execStrFind_effect (j a len : U32) (s : State) : HostEffect s i (execStrFind j a len s) := by
  unfold execStrFind
  split
  next h => exact .refused (stringNode_error h)
  next => exact tested_effect

/-! ## The registers and the diagnostics -/

/-- A register write changes CRC, PRE or CFG, and never `PRE.csum_valid` (10_state.md R24). -/
theorem writeReg_fields (x : Reg) (v : U32) (s : State) :
    ∃ c p g, writeReg x v s = { s with crc := c, pre := p, cfg := g } ∧ p.csumValid = s.pre.csumValid := by
  cases x <;> exact ⟨_, _, _, rfl, rfl⟩

theorem execRdReg_effect (r : U32) (s : State) : HostEffect s i (execRdReg r s) := by
  unfold execRdReg
  split
  · exact badOperand_effect s
  · exact tested_effect

theorem execWrReg_effect (r v : U32) (s : State) : HostEffect s (.wrReg r v) (execWrReg r v s) := by
  unfold execWrReg
  split
  · exact badOperand_effect s
  next x _ =>
    split
    · obtain ⟨c, p, g, hwrite, hp⟩ := writeReg_fields x v s
      exact hwrite ▸ .registerWritten hp
    · exact badOperand_effect s

theorem execRdDiag_effect (k : U32) (s : State) : HostEffect s i (execRdDiag k s) := by
  unfold execRdDiag
  split
  · exact indexOutOfRange_effect s
  · exact .answered

/-! ## Every command -/

/-- Every host command has one of the effects of `HostEffect`. -/
theorem exec_effect (h : isHostCommand i = true) (s : State) : HostEffect s i (exec i s) := by
  cases i with
  | crcInit => exact .crcLoaded rfl
  | crcSet v => exact crc_effect rfl
  | crcBit d => exact crc_effect rfl
  | crcUpdate b => exact crc_effect rfl
  | crcCompute a len => exact crc_effect rfl
  | decode n => exact execDecode_effect n s
  | encode cap opts => exact execEncode_effect cap opts s
  | release => exact .released
  | append a len => exact execAppend_effect a len s
  | find t => exact findAnswer_effect t s
  | removeLast => exact execRemoveLast_effect s
  | sort => exact execSort_effect s
  | findNeighbor j t => exact execFindNeighbor_effect j t s
  | rdCat j => exact execRdCat_effect j s
  | strAdd j a len => exact execStrAdd_effect j a len s
  | strById j k => exact execStrById_effect j k s
  | strFind j a len => exact execStrFind_effect j a len s
  | rdReg r => exact execRdReg_effect r s
  | wrReg r v => exact execWrReg_effect r v s
  | rdDiag k => exact execRdDiag_effect k s
  | preamble | stdconfig | strings | datatypes | general | fmmu | syncm | txpdo | rxpdo | dclock | endMark | unknown =>
    exact absurd h Bool.false_ne_true

end

/-! ## The frame of the host commands -/

/-- Each element of the state against its writers (10_state.md R22 to R44). -/
structure HostFrame (i : Instr) (s t : State) : Prop where
  crc : writesCrc i = false → t.crc = s.crc := by intro _; rfl
  header : writesHeader i = false → t.pre = s.pre ∧ t.cfg = s.cfg := by intro _; exact ⟨rfl, rfl⟩
  walker : writesWalker i = false → t.w = s.w ∧ t.pre.csumValid = s.pre.csumValid := by intro _; exact ⟨rfl, rfl⟩
  cats : writesCats i = false → t.cats = s.cats := by intro _; rfl
  out : writesOut i = false → t.outValid = s.outValid ∧ t.outLen = s.outLen ∧ t.out = s.out := by
    intro _; exact ⟨rfl, rfl, rfl⟩
  err : writesErr i = false → t.err = s.err := by intro _; rfl
  diags : writesDiag i = false → t.diags = s.diags := by intro _; rfl
  writer : writesWriter i = false → t.e = s.e := by intro _; rfl
  input : t.input = s.input := by rfl
  host : t.host = s.host := by rfl
  config : t.config = s.config := by rfl

/-- What ENCODE keeps is what its row of `HostFrame` asks. -/
theorem EncodeKeeps.hostFrame {s t : State} (h : EncodeKeeps s t) (cap opts : U32) : HostFrame (.encode cap opts) s t where
  crc _ := h.crc
  header _ := ⟨h.pre, h.cfg⟩
  walker _ := ⟨h.w, h.pre ▸ rfl⟩
  cats _ := h.cats
  out := nofun
  err := nofun
  diags _ := h.diags
  writer := nofun
  input := h.input
  host := h.host
  config := h.config

/-- What a walk keeps is what the row of DECODE asks. -/
theorem WalkKeeps.hostFrame {s t : State} (h : WalkKeeps s t) (n : U32) : HostFrame (.decode n) s t where
  crc _ := h.crc
  header := nofun
  walker := nofun
  cats := nofun
  out := nofun
  err := nofun
  diags := nofun
  writer _ := h.e
  input := h.input
  host := h.host
  config := h.config

theorem HostEffect.frame {i : Instr} {s t : State} (h : HostEffect s i (.next t)) : HostFrame i s t := by
  cases h with
  | answered => exact {}
  | refused hc => exact {}
  | crcLoaded hi => exact { crc := fun h => Bool.noConfusion (hi.symm.trans h) }
  | registerWritten hp => exact { crc := nofun, header := nofun, walker := fun _ => ⟨rfl, hp⟩ }
  | appended hc hroom => exact { cats := nofun }
  | catsRewritten hi hn hlen => exact { cats := fun h => Bool.noConfusion (hi.symm.trans h) }
  | released => exact { header := nofun, walker := nofun, cats := nofun, out := nofun }
  | decoded hn hrun => exact WalkKeeps.hostFrame (WalkKeeps.trans {} (runWalk_keeps_frame hrun)) _
  | encoded ht => exact (EncodeKeeps.trans ht.keeps {}).hostFrame _ _
  | encodeRaised hk ht => exact hk.hostFrame _ _

/-- Settles O58: the frame of every effect a command can have. -/
theorem hostCommandsWriteOnlyTheirElements : Obligations.HostCommandsWriteOnlyTheirElements := by
  intro i s t hi hexec
  have hframe := (hexec ▸ exec_effect hi s : HostEffect s i (.next t)).frame
  refine ⟨hframe.crc, hframe.header, hframe.walker, hframe.cats, fun hw => ?_, hframe.err, hframe.diags, hframe.writer,
    fun a => by rw [hframe.input], hframe.host, hframe.config⟩
  obtain ⟨hvalid, hlen, hout⟩ := hframe.out hw
  exact ⟨hvalid, hlen, fun a => by rw [hout]⟩

end Sys2Proof.Machine
end

section
/-! SUPPORT. The state invariant over one step of the machine (10_state.md R49). -/

namespace Sys2Proof.Machine

/-- Every effect of a host command keeps the invariant. -/
theorem HostEffect.invariant {i : Instr} {s t : State} (heff : HostEffect s i (.next t)) (h : Invariant s) :
    Invariant t := by
  cases heff with
  | answered => exact h.finish _ _ _
  | refused hc => exact h.refuse hc
  | crcLoaded hi => exact { h with status := List.mem_cons_self, response := rfl }
  | registerWritten hp => exact { h with status := List.mem_cons_self, response := rfl }
  | appended hc hroom => exact (h.catsAppend hc hroom).finish _ _ _
  | catsRewritten hi hn hlen => exact (h.withCats (hn h.nodes) (withinCap_of_le h.catRoom hlen)).finish _ _ _
  | released => exact (h.emptyImage.withWalker rfl).finish _ _ _
  | decoded hn hrun => exact runWalk_keeps_invariant (h.startDecode hn) hrun
  | encoded ht => exact h.finishEncode ht
  | encodeRaised hk ht => exact h.encodeRaised hk ht

/-- The command channel holds no item of an image. -/
theorem decodeCommand_isHostCommand {c : Command} {i : Instr} (h : decodeCommand c = .ok i) : isHostCommand i = true := by
  unfold decodeCommand at h
  split at h <;> cases h <;> rfl

theorem decodeCommand_error {c : Command} {e : DecodeError} (h : decodeCommand c = .error e) : e = .badCommand := by
  unfold decodeCommand at h
  split at h <;> cases h
  rfl

/-- What the host has pending is no part of the invariant. -/
theorem Invariant.withHost {s : State} (h : Invariant s) (evs : List HostEvent) : Invariant { s with host := evs } :=
  { h with }

theorem Invariant.hostWrite {s t : State} (h : Invariant s) {a : U32} {b : Bytes} (ht : hostWrite a b s = .next t) :
    Invariant t := by
  unfold Machine.hostWrite at ht
  split at ht <;> cases ht
  next hfit => exact { h with inCanonical := wf_writeBlock hfit h.inCanonical }

theorem Invariant.step {s t : State} (h : Invariant s) (ht : step s = .next t) : Invariant t := by
  by_cases hw : walking s.w.phase = true
  · exact (walkStep_effect hw (step_walking hw ▸ ht)).invariant h
  · simp only [Machine.step, if_neg hw] at ht
    split at ht
    · cases ht; exact h
    next c rest hhost =>
      split at ht
      next e he =>
        cases ht
        obtain rfl := decodeCommand_error he
        exact (h.withHost rest).refuse (by decide)
      next i hi =>
        have heff := exec_effect (decodeCommand_isHostCommand hi) { s with host := rest }
        exact (ht ▸ heff).invariant (h.withHost rest)
    · exact (h.withHost _).hostWrite ht
    · cases ht; exact (h.withHost _).resetEvent

/-- Settles O59: a step of a walk by its effects, a host command by its own, and the host's other events. -/
theorem stepKeepsTheStateInvariant : Obligations.StepKeepsTheStateInvariant := by
  intro s t hs ht
  exact (stateInv_iff t).mpr (((stateInv_iff s).mp hs).step ht)

end Sys2Proof.Machine
end

section
/-! SUPPORT. The host's write of IN, and what can stop the machine (20_memory.md R60, R61; log 8). -/

namespace Sys2Proof.Machine

/-! ## The host's write -/

theorem hostWrite_inside {a : U32} {b : Bytes} (h : a.toNat + b.length ≤ spaceSize) (s : State) :
    hostWrite a b s = .next (hostWriteIn a.toNat b s) := if_pos h

theorem hostWrite_outside {a : U32} {b : Bytes} (h : spaceSize < a.toNat + b.length) (s : State) :
    hostWrite a b s = .fault .hostWriteOutsideIn := if_neg h.not_ge

/-- A byte of IN after a host write (20_memory.md R61). -/
theorem inByte_hostWriteIn (a : Nat) (b : Bytes) (s : State) (x : Nat) :
    inByte (hostWriteIn a b s).input x =
      if a ≤ x ∧ x < a + b.length then b.getD (x - a) 0 else inByte s.input x :=
  inByte_writeBlock a b s.input x

theorem step_of_writeIn {s : State} {a : U32} {b : Bytes} {rest : List HostEvent} (hw : ¬ walking s.w.phase = true)
    (hh : s.host = .writeIn a b :: rest) : step s = hostWrite a b { s with host := rest } := by
  simp only [step, if_neg hw, hh]

/-! ## What can stop the machine -/

/-- Every instruction answers a next state: a corollary of the ways a command can end. -/
theorem exec_next (i : Instr) (s : State) : ∃ t, exec i s = .next t := by
  obtain ⟨t, ht, -⟩ := everyCommandEndsInOneOfThreeWays i s
  exact ⟨t, ht⟩

/-- How one step can end: in a next state, or in the machine's one fault, by a host write past the space of IN. -/
inductive StepEnds (s : State) : Out → Prop
  | next (t : State) : StepEnds s (.next t)
  | outsideWrite {a : U32} {b : Bytes} {rest : List HostEvent} (hhost : s.host = .writeIn a b :: rest)
      (hpast : spaceSize < a.toNat + b.length) : StepEnds s (.fault .hostWriteOutsideIn)

theorem stepEnds_of_next {s : State} {o : Out} (h : ∃ t, o = .next t) : StepEnds s o := by
  obtain ⟨t, rfl⟩ := h
  exact .next t

/-- A step of a walk, a wait, a command and `rst` answer a next state; a host write does when it fits. -/
theorem step_ends (s : State) : StepEnds s (step s) := by
  by_cases hw : walking s.w.phase = true
  · rw [step_walking hw]
    exact stepEnds_of_next (walkStep_next s)
  · cases hh : s.host with
    | nil => simp only [step, if_neg hw, hh]; exact .next _
    | cons ev rest =>
      cases ev with
      | command c =>
        simp only [step, if_neg hw, hh]
        split
        · exact .next _
        · exact stepEnds_of_next (exec_next _ _)
      | writeIn a b =>
        rw [step_of_writeIn hw hh]
        by_cases hfit : a.toNat + b.length ≤ spaceSize
        · rw [hostWrite_inside hfit]
          exact .next _
        · rw [hostWrite_outside (not_le.mp hfit)]
          exact .outsideWrite hh (not_le.mp hfit)
      | rst => simp only [step, if_neg hw, hh]; exact .next _

/-- Settles O5: the rule of the host write, and the two ways a step can end. -/
theorem onlyAnOutsideHostWriteStops : Obligations.OnlyAnOutsideHostWriteStops := by
  refine ⟨fun s a b rest ha hh hfit => ?_, fun s f hfault => ?_, fun s r hrefused => ?_⟩
  · exact ⟨_, (step_of_writeIn (not_walking_of_accepting ha) hh).trans (hostWrite_inside hfit _), rfl,
      inByte_hostWriteIn a.toNat b { s with host := rest }⟩
  · obtain - | ⟨hhost, hpast⟩ := (hfault ▸ step_ends s : StepEnds s (.fault f))
    exact ⟨_, _, _, hhost, hpast⟩
  · cases (hrefused ▸ step_ends s : StepEnds s (.refused r))

end Sys2Proof.Machine
end

section
/-! SUPPORT. The items of an image and their bytes: decoder and encoder agree on one relation between them
(30_encoding.md R80 to R85, R93 to R95; 44_walker.md R262 to R264). -/

namespace Sys2Proof.Machine

/-! ## The rows of the opcode map -/

/-- The opcode map as a chain of tests on the whole type word (30_encoding.md R93, R95). -/
theorem sectionInstr_eq_ite (t : U16) (p : Bytes) : sectionInstr t p =
    if t.toNat = 10 then .strings p else if t.toNat = 20 then .datatypes p else if t.toNat = 30 then .general p
    else if t.toNat = 40 then .fmmu p else if t.toNat = 41 then .syncm p else if t.toNat = 50 then .txpdo p
    else if t.toNat = 51 then .rxpdo p else if t.toNat = 60 then .dclock p else .unknown t p := by
  unfold sectionInstr
  split
  iterate 8
    next h => simp only [h, Nat.reduceEqDiff, reduceIte]
  next h10 h20 h30 h40 h41 h50 h51 h60 =>
    rw [if_neg h10, if_neg h20, if_neg h30, if_neg h40, if_neg h41, if_neg h50, if_neg h51, if_neg h60]

theorem knownTypes_not_contains_iff (t : U16) : knownTypes.contains t = false ↔
    ¬ t.toNat = 10 ∧ ¬ t.toNat = 20 ∧ ¬ t.toNat = 30 ∧ ¬ t.toNat = 40 ∧ ¬ t.toNat = 41 ∧ ¬ t.toNat = 50 ∧
      ¬ t.toNat = 51 ∧ ¬ t.toNat = 60 ∧ ¬ t.toNat = 65535 := by
  simp [knownTypes, BitVec.toNat_eq]

theorem sectionInstr_of_not_known {t : U16} (ht : knownTypes.contains t = false) (p : Bytes) :
    sectionInstr t p = .unknown t p := by
  obtain ⟨h10, h20, h30, h40, h41, h50, h51, h60, -⟩ := (knownTypes_not_contains_iff t).mp ht
  rw [sectionInstr_eq_ite, if_neg h10, if_neg h20, if_neg h30, if_neg h40, if_neg h41, if_neg h50, if_neg h51,
    if_neg h60]

/-- The encoder writes the type word that selected the row. -/
theorem encode_sectionInstr (t : U16) (p : Bytes) :
    encode (sectionInstr t p) = .item .descriptor (sectionBytes t p) := by
  unfold sectionInstr
  split
  next h => obtain rfl : t = 10 := BitVec.eq_of_toNat_eq h; rfl
  next h => obtain rfl : t = 20 := BitVec.eq_of_toNat_eq h; rfl
  next h => obtain rfl : t = 30 := BitVec.eq_of_toNat_eq h; rfl
  next h => obtain rfl : t = 40 := BitVec.eq_of_toNat_eq h; rfl
  next h => obtain rfl : t = 41 := BitVec.eq_of_toNat_eq h; rfl
  next h => obtain rfl : t = 50 := BitVec.eq_of_toNat_eq h; rfl
  next h => obtain rfl : t = 51 := BitVec.eq_of_toNat_eq h; rfl
  next h => obtain rfl : t = 60 := BitVec.eq_of_toNat_eq h; rfl
  next => rfl

/-- A row selected by any type word but the terminator's asks of its payload only that it has a size in words. -/
theorem sectionInstr_wf {t : U16} (ht : t ≠ Config.endType) (p : Bytes) : (sectionInstr t p).wf = payloadWf p := by
  have hend : ¬ t.toNat = 65535 := fun h => ht (BitVec.eq_of_toNat_eq h)
  unfold sectionInstr
  split
  iterate 8
    next => rfl
  next h10 h20 h30 h40 h41 h50 h51 h60 =>
    have hunknown := (knownTypes_not_contains_iff t).mpr ⟨h10, h20, h30, h40, h41, h50, h51, h60, hend⟩
    simp only [Instr.wf, hunknown, Bool.not_false, Bool.true_and]

/-! ## The size word -/

/-- A payload is well-formed when a 16-bit size word counts its words (30_encoding.md R83, R84). -/
theorem payloadWf_iff (p : Bytes) : payloadWf p = true ↔ ∃ w : U16, p.length = 2 * w.toNat := by
  have hlimit : Config.maxPayload = 2 * (2 ^ 16 - 1) := rfl
  simp only [payloadWf, Bool.and_eq_true, beq_iff_eq, decide_eq_true_eq]
  constructor
  · rintro ⟨heven, hmax⟩
    refine ⟨BitVec.ofNat 16 (p.length / 2), ?_⟩
    rw [BitVec.toNat_ofNat]
    omega
  · rintro ⟨w, hw⟩
    have := w.isLt
    omega

theorem sectionBytes_of_size {w : U16} {p : Bytes} (hp : p.length = 2 * w.toNat) (t : U16) :
    sectionBytes t p = le16 t ++ (le16 w ++ p) := by
  have hw : p.length / 2 = w.toNat := by omega
  simp only [sectionBytes, hw, BitVec.ofNat_toNat, BitVec.setWidth_eq, List.append_assoc]

/-! ## A descriptor boundary -/

theorem decodeSection_endMark (rest : Bytes) : decodeSection (le16 Config.endType ++ rest) = .ok .endMark := by
  have hlen : ¬ (le16 Config.endType ++ rest).length < 2 := by
    simp only [List.length_append, le16_length]
    omega
  rw [decodeSection, if_neg hlen, rd16_le16_append, if_pos rfl]

/-- Past the type word's test, the size word alone delimits the payload (30_encoding.md R83, R84). -/
theorem decodeSection_section {t w : U16} {p : Bytes} (ht : t ≠ Config.endType) (hp : p.length = 2 * w.toNat)
    (rest : Bytes) : decodeSection (le16 t ++ (le16 w ++ (p ++ rest))) = .ok (sectionInstr t p) := by
  have hsize : rd16 (le16 t ++ (le16 w ++ (p ++ rest))) 2 = w := by
    rw [rd16_append_right (le16_length t).le, le16_length]
    exact rd16_le16_append w _
  have hpayload : ((le16 t ++ (le16 w ++ (p ++ rest))).drop 4).take (2 * w.toNat) = p := List.take_left' hp
  have hroom : ¬ 2 * w.toNat > (le16 t ++ (le16 w ++ (p ++ rest))).length - 4 := by
    simp only [List.length_append, le16_length]
    omega
  have hdesc : 4 ≤ (le16 t ++ (le16 w ++ (p ++ rest))).length := by
    simp only [List.length_append, le16_length]
    omega
  rw [decodeSection, hsize, hpayload, rd16_le16_append, if_neg (by omega), if_neg ht, if_neg (by omega), if_neg hroom]

theorem le16_rd16_append_drop {b : Bytes} (h : 2 ≤ b.length) : le16 (rd16 b 0) ++ b.drop 2 = b := by
  match b, h with
  | x :: y :: b, _ => simp [rd16, le16_u16of]

theorem rd16_drop (b : Bytes) (k o : Nat) : rd16 (b.drop k) o = rd16 b (k + o) := by
  simp [rd16, rd8, List.getD_eq_getElem?_getD, Nat.add_assoc]

/-- A buffer of four bytes or more begins with a descriptor, and what it does not count follows the payload. -/
theorem descriptor_append_payload {b : Bytes} {n : Nat} (h : 4 ≤ b.length) :
    b = le16 (rd16 b 0) ++ (le16 (rd16 b 2) ++ ((b.drop 4).take n ++ b.drop (4 + n))) := by
  have hrest : (b.drop 4).take n ++ b.drop (4 + n) = b.drop 4 := by
    rw [← List.drop_drop, List.take_append_drop]
  have hsize : le16 (rd16 b 2) ++ b.drop 4 = b.drop 2 := by
    have := le16_rd16_append_drop (b := b.drop 2) (by rw [List.length_drop]; omega)
    rwa [rd16_drop, List.drop_drop] at this
  rw [hrest, hsize, le16_rd16_append_drop (by omega)]

/-! ## Items -/

/-- `x` are the bytes of the item `i` at its slot, all of them and no others (30_encoding.md R81 to R85). -/
inductive IsItem : WireSlot → Bytes → Instr → Prop
  | preamble {p : Bytes} (hp : p.length = Config.preBytes) : IsItem .preamble p (.preamble p)
  | stdConfig {c : Bytes} (hc : c.length = Config.cfgBytes) : IsItem .stdConfig c (.stdconfig c)
  | endMark : IsItem .descriptor (le16 Config.endType) .endMark
  | ofSection {t w : U16} {p : Bytes} (ht : t ≠ Config.endType) (hp : p.length = 2 * w.toNat) :
      IsItem .descriptor (le16 t ++ (le16 w ++ p)) (sectionInstr t p)

theorem IsItem.of_sectionBytes {t : U16} {p : Bytes} (ht : t ≠ Config.endType) (hp : payloadWf p = true) :
    IsItem .descriptor (sectionBytes t p) (sectionInstr t p) := by
  obtain ⟨w, hw⟩ := (payloadWf_iff p).mp hp
  exact sectionBytes_of_size hw t ▸ .ofSection ht hw

/-- An item is read from its bytes, whatever follows them. -/
theorem IsItem.decode_append {slot : WireSlot} {x : Bytes} {i : Instr} (h : IsItem slot x i) (rest : Bytes) :
    decode (.item slot (x ++ rest)) = .ok i := by
  cases h with
  | preamble hp => simp [decode, decodeItem, ← hp]
  | stdConfig hc => simp [decode, decodeItem, ← hc]
  | endMark => exact decodeSection_endMark rest
  | ofSection ht hp =>
    rw [List.append_assoc, List.append_assoc]
    exact decodeSection_section ht hp rest

/-- What is read from a buffer is an item at its head. -/
theorem isItem_of_decodeSection {b : Bytes} {i : Instr} (h : decodeSection b = .ok i) :
    ∃ x rest, IsItem .descriptor x i ∧ b = x ++ rest := by
  unfold decodeSection at h
  split at h
  · cases h
  next htype =>
    split at h
    next hend =>
      cases h
      exact ⟨_, b.drop 2, .endMark, by rw [← hend, le16_rd16_append_drop (by omega)]⟩
    next hend =>
      split at h
      · cases h
      next hdesc =>
        split at h
        · cases h
        next hroom =>
          cases h
          have hlen : ((b.drop 4).take (2 * (rd16 b 2).toNat)).length = 2 * (rd16 b 2).toNat := by
            rw [List.length_take, List.length_drop]
            omega
          refine ⟨_, b.drop (4 + 2 * (rd16 b 2).toNat), .ofSection hend hlen, ?_⟩
          rw [List.append_assoc, List.append_assoc]
          exact descriptor_append_payload (by omega)

theorem isItem_of_decode {slot : WireSlot} {b : Bytes} {i : Instr} (h : decode (.item slot b) = .ok i) :
    ∃ x rest, IsItem slot x i ∧ b = x ++ rest := by
  cases slot with
  | preamble =>
    simp only [decode, decodeItem] at h
    split at h <;> cases h
    exact ⟨_, b.drop Config.preBytes, .preamble (List.length_take_of_le (by omega)), (List.take_append_drop _ _).symm⟩
  | stdConfig =>
    simp only [decode, decodeItem] at h
    split at h <;> cases h
    exact ⟨_, b.drop Config.cfgBytes, .stdConfig (List.length_take_of_le (by omega)), (List.take_append_drop _ _).symm⟩
  | descriptor => exact isItem_of_decodeSection h

theorem IsItem.wf {slot : WireSlot} {x : Bytes} {i : Instr} (h : IsItem slot x i) : i.wf = true := by
  cases h with
  | preamble hp => exact beq_iff_eq.mpr hp
  | stdConfig hc => exact beq_iff_eq.mpr hc
  | endMark => rfl
  | ofSection ht hp => exact (sectionInstr_wf ht _).trans ((payloadWf_iff _).mpr ⟨_, hp⟩)

theorem IsItem.encode_eq {slot : WireSlot} {x : Bytes} {i : Instr} (h : IsItem slot x i) : encode i = .item slot x := by
  cases h with
  | preamble | stdConfig | endMark => rfl
  | ofSection ht hp => rw [encode_sectionInstr, sectionBytes_of_size hp]

/-- What the encoder lays down for a well-formed item is the item's bytes. -/
theorem isItem_of_encode {slot : WireSlot} {x : Bytes} {i : Instr} (hwf : i.wf = true) (h : encode i = .item slot x) :
    IsItem slot x i := by
  cases i with
  | preamble p => cases h; exact .preamble (beq_iff_eq.mp hwf)
  | stdconfig c => cases h; exact .stdConfig (beq_iff_eq.mp hwf)
  | strings p => cases h; exact .of_sectionBytes (t := 10) (by decide) hwf
  | datatypes p => cases h; exact .of_sectionBytes (t := 20) (by decide) hwf
  | general p => cases h; exact .of_sectionBytes (t := 30) (by decide) hwf
  | fmmu p => cases h; exact .of_sectionBytes (t := 40) (by decide) hwf
  | syncm p => cases h; exact .of_sectionBytes (t := 41) (by decide) hwf
  | txpdo p => cases h; exact .of_sectionBytes (t := 50) (by decide) hwf
  | rxpdo p => cases h; exact .of_sectionBytes (t := 51) (by decide) hwf
  | dclock p => cases h; exact .of_sectionBytes (t := 60) (by decide) hwf
  | endMark => cases h; exact .endMark
  | unknown t p =>
    cases h
    simp only [Instr.wf, Bool.and_eq_true, Bool.not_eq_true'] at hwf
    obtain ⟨hunknown, hp⟩ := hwf
    have ht : t ≠ Config.endType := by rintro rfl; cases hunknown
    exact sectionInstr_of_not_known hunknown p ▸ .of_sectionBytes ht hp
  | _ => cases h

/-! ## Commands -/

/-- The command table read backwards and forwards again (30_encoding.md R100). -/
theorem decode_command_of_encode {i : Instr} {c : Command} (h : encode i = .command c) :
    decode (.command c) = .ok i := by
  cases i with
  | preamble | stdconfig | strings | datatypes | general | fmmu | syncm | txpdo | rxpdo | dclock | endMark
  | unknown => cases h
  | _ => cases h; rfl

/-- `c` with every argument 0 that its row of 30_encoding.md R100 does not use. -/
def usedArguments (c : Command) : Command :=
  { code := c.code,
    arg0 := if c.code.toNat ∈ [0x02, 0x03, 0x04, 0x05, 0x10, 0x11, 0x20, 0x21, 0x24, 0x25, 0x28, 0x29, 0x2A, 0x30,
      0x31, 0x32] then c.arg0 else 0,
    arg1 := if c.code.toNat ∈ [0x05, 0x11, 0x20, 0x24, 0x28, 0x29, 0x2A, 0x31] then c.arg1 else 0,
    arg2 := if c.code.toNat ∈ [0x28, 0x2A] then c.arg2 else 0 }

/-- Row by row: a code of the table fixes the instruction, which is well-formed and keeps the arguments it uses. -/
theorem encode_of_decode_command {c : Command} {i : Instr} (h : decode (.command c) = .ok i) :
    i.wf = true ∧ encode i = .command (usedArguments c) := by
  obtain ⟨code, a0, a1, a2⟩ := c
  simp only [decode, decodeCommand] at h
  split at h
  iterate 20
    next hcode =>
      obtain ⟨-, rfl⟩ := BitVec.toNat_eq_nat.mp hcode
      cases h
      exact ⟨rfl, rfl⟩
  next => cases h

/-! ## The statements about encodings -/

/-- Settles O6: a command by its row of the table, an item by its bytes. -/
theorem decodeOfEncodeIsTheInstruction : Obligations.DecodeOfEncodeIsTheInstruction := by
  intro i hwf
  have happend : ∀ slot x rest, encode i = .item slot x → decode (.item slot (x ++ rest)) = .ok i :=
    fun _ _ rest h => (isItem_of_encode hwf h).decode_append rest
  refine ⟨?_, happend⟩
  cases h : encode i with
  | command c => exact decode_command_of_encode h
  | item slot x => simpa using happend slot x [] h

/-- Settles O7: the item at the head of the buffer, or the row of the command table, encodes to what was read. -/
theorem decodedInstructionsAreWellFormed : Obligations.DecodedInstructionsAreWellFormed := by
  refine ⟨fun slot b i h => ?_, fun c i h => encode_of_decode_command h⟩
  obtain ⟨x, rest, hx, hb⟩ := isItem_of_decode h
  exact ⟨hx.wf, x, rest, hx.encode_eq, hb⟩

/-- Settles O8: the terminator by its type word alone, every other type word by its row. -/
theorem typeWordSelectsTheRow : Obligations.TypeWordSelectsTheRow := by
  intro t w p rest hp
  by_cases ht : t = Config.endType
  · subst ht
    exact decodeSection_endMark _
  · have hne : t.toNat ≠ 65535 := fun h => ht (BitVec.eq_of_toNat_eq h)
    rw [if_neg hne, ← sectionInstr_eq_ite]
    exact decodeSection_section ht hp rest

/-- Settles O9: each word evaluates. -/
theorem writtenOutWordsDecode : Obligations.WrittenOutWordsDecode :=
  ⟨rfl, rfl, rfl, rfl, rfl, rfl, rfl⟩

end Sys2Proof.Machine
end

section
/-! SUPPORT. What the encoders put at the reserved offsets and in the unnamed bits (30_encoding.md R97;
43_category_codecs.md R226). -/

namespace Sys2Proof.Machine

/-! ## Runs of zeros -/

/-- A reserved run of `n` bytes at `lo` reads as 0. -/
theorem rd8_of_drop_eq_zeros {b c : Bytes} {lo n k : Nat} (h : b.drop lo = zeros n ++ c) (hlo : lo ≤ k)
    (hk : k < lo + n) : rd8 b k = 0 := by
  have hdrop : rd8 b k = rd8 (b.drop lo) (k - lo) := by
    simp [rd8, List.getD_eq_getElem?_getD, Nat.add_sub_cancel' hlo]
  have hin : k - lo < (zeros n).length := by rw [zeros_length]; omega
  rw [hdrop, h, rd8_append_left hin, rd8_zeros]

/-! ## Flag bytes -/

theorem bitAt_toNat_lt (f : Bool) {k n : Nat} (h : k < n) : (bitAt f k).toNat < 2 ^ n := by
  have hpow : 2 ^ k < 2 ^ n := Nat.pow_lt_pow_right Nat.one_lt_two h
  cases f with
  | false => exact Nat.two_pow_pos n
  | true =>
    have hbit : (bitAt true k).toNat = 2 ^ k % 2 ^ 8 := by simp [bitAt, Nat.one_shiftLeft]
    exact hbit.trans_lt ((Nat.mod_le _ _).trans_lt hpow)

theorem or_toNat_lt {x y : Byte} {n : Nat} (hx : x.toNat < 2 ^ n) (hy : y.toNat < 2 ^ n) :
    (x ||| y).toNat < 2 ^ n := by
  rw [BitVec.toNat_or]
  exact Nat.or_lt_two_pow hx hy

theorem coeByte_lt (g : General) : (coeByte g).toNat < 2 ^ 6 := by
  refine or_toNat_lt (or_toNat_lt (or_toNat_lt (or_toNat_lt (or_toNat_lt ?_ ?_) ?_) ?_) ?_) ?_ <;>
    exact bitAt_toNat_lt _ (by decide)

theorem generalStatusByte_lt (g : General) : (generalStatusByte g).toNat < 2 ^ 5 := by
  refine or_toNat_lt (or_toNat_lt (or_toNat_lt (or_toNat_lt ?_ ?_) ?_) ?_) ?_ <;>
    exact bitAt_toNat_lt _ (by decide)

theorem dcFlagsByte_lt (d : DClock) : (dcFlagsByte d).toNat < 2 ^ 3 := by
  refine or_toNat_lt (or_toNat_lt ?_ ?_) ?_ <;> exact bitAt_toNat_lt _ (by decide)

theorem latchByte_lt (pos neg : Bool) : (latchByte pos neg).toNat < 2 ^ 2 :=
  or_toNat_lt (bitAt_toNat_lt pos (by decide)) (bitAt_toNat_lt neg (by decide))

/-! ## The encoders -/

theorem encodePreamble_reserved (r : Preamble) : ∀ k ∈ [10, 11, 12, 13, 15], rd8 (encodePreamble r) k = 0 := by
  simp only [List.forall_mem_cons]
  exact ⟨rfl, rfl, rfl, rfl, rfl, List.forall_mem_nil _⟩

theorem encodeStdConfig_reserved (g : StdConfig) (k : Nat) (h : 16 ≤ k ∧ k < 24 ∨ 42 ≤ k ∧ k < 108) :
    rd8 (encodeStdConfig g) k = 0 := by
  obtain ⟨hlo, hk⟩ | ⟨hlo, hk⟩ := h
  · exact rd8_of_drop_eq_zeros (n := 8) rfl hlo hk
  · exact rd8_of_drop_eq_zeros (n := 66) rfl hlo hk

theorem encodeGeneral_reserved (g : General) :
    ∀ k ∈ [4, 8, 9, 10, 14, 15, 20, 21, 22, 23, 24, 25, 26, 27, 28, 29, 30, 31], rd8 (encodeGeneral g) k = 0 := by
  simp only [List.forall_mem_cons]
  exact ⟨rfl, rfl, rfl, rfl, rfl, rfl, rfl, rfl, rfl, rfl, rfl, rfl, rfl, rfl, rfl, rfl, rfl, rfl, List.forall_mem_nil _⟩

theorem encodeDClock_reserved (d : DClock) (k : Nat)
    (h : k = 0 ∨ 4 ≤ k ∧ k < 14 ∨ 20 ≤ k ∧ k < 32 ∨ 44 ≤ k ∧ k < 54 ∨ 58 ≤ k ∧ k < 62 ∨ 66 ≤ k ∧ k < 70 ∨
      74 ≤ k ∧ k < 78 ∨ 82 ≤ k ∧ k < 86) : rd8 (encodeDClock d) k = 0 := by
  obtain rfl | ⟨hlo, hk⟩ | ⟨hlo, hk⟩ | ⟨hlo, hk⟩ | ⟨hlo, hk⟩ | ⟨hlo, hk⟩ | ⟨hlo, hk⟩ | ⟨hlo, hk⟩ := h
  · rfl
  · exact rd8_of_drop_eq_zeros (n := 10) rfl hlo hk
  · exact rd8_of_drop_eq_zeros (n := 12) rfl hlo hk
  · exact rd8_of_drop_eq_zeros (n := 10) rfl hlo hk
  · exact rd8_of_drop_eq_zeros (n := 4) rfl hlo hk
  · exact rd8_of_drop_eq_zeros (n := 4) rfl hlo hk
  · exact rd8_of_drop_eq_zeros (n := 4) rfl hlo hk
  · exact rd8_of_drop_eq_zeros (n := 4) rfl hlo hk

theorem encodeDClock_latches_lt (d : DClock) :
    ∀ k ∈ [40, 41, 42, 43], (rd8 (encodeDClock d) k).toNat < 4 := by
  simp only [List.forall_mem_cons]
  exact ⟨latchByte_lt _ _, latchByte_lt _ _, latchByte_lt _ _, latchByte_lt _ _, List.forall_mem_nil _⟩

/-- The SyncManager status byte of every record is 0, whatever the registry holds (43_category_codecs.md R226). -/
theorem encodeSyncM_status (es : List SyncEntry) (j : Nat) (h : j < es.length) :
    rd8 (encodeSyncM es) (8 * j + 5) = 0 := by
  induction es generalizing j with
  | nil => cases h
  | cons e es ih =>
    cases j with
    | zero => rfl
    | succ j =>
      have hlen : (encodeSyncEntry e).length = 8 := rfl
      rw [encodeSyncM, rd8_append_right (by omega), hlen, show 8 * (j + 1) + 5 - 8 = 8 * j + 5 by omega]
      exact ih j (Nat.lt_of_succ_lt_succ h)

/-- Settles O30, encoder by encoder. -/
theorem reservedBytesAreWrittenAsZero : Obligations.ReservedBytesAreWrittenAsZero :=
  ⟨encodePreamble_reserved, encodeStdConfig_reserved,
    fun g => ⟨encodeGeneral_reserved g, coeByte_lt g, bitAt_toNat_lt g.foeEnabled Nat.zero_lt_one,
      bitAt_toNat_lt g.eoeEnabled Nat.zero_lt_one, generalStatusByte_lt g⟩,
    fun d => ⟨encodeDClock_reserved d, dcFlagsByte_lt d, bitAt_toNat_lt d.int0Status Nat.zero_lt_one,
      bitAt_toNat_lt d.int1Status Nat.zero_lt_one, encodeDClock_latches_lt d⟩,
    encodeSyncM_status⟩

end Sys2Proof.Machine
end

section
/-! SUPPORT. The CRC-8 generator: one round of its loop loses nothing, and the circuit that takes a byte bit by bit
leaves what the loop leaves (40_crc8.md R121 to R124). -/

namespace Sys2Proof.Machine

/-! ## One shift -/

/-- The feedback enters at bit 0: the polynomial has a constant term (40_crc8.md R123). -/
theorem getLsbD_crcShift_zero (fb : Bool) (s : Byte) : (crcShift fb s).getLsbD 0 = fb := by
  cases fb with
  | false => simp [crcShift]
  | true => simp [crcShift, Config.crcPoly]

/-- A higher bit is the one below it, and the feedback where the polynomial has a term (40_crc8.md R123). -/
theorem getLsbD_crcShift_succ (fb : Bool) (s : Byte) {i : Nat} (hi : i < 7) :
    (crcShift fb s).getLsbD (i + 1) = (s.getLsbD i ^^ (fb && Config.crcPoly.getLsbD (i + 1))) := by
  have hshift : (s <<< 1).getLsbD (i + 1) = s.getLsbD i := by
    rw [BitVec.getLsbD_shiftLeft, decide_eq_true (Nat.succ_lt_succ hi)]
    simp
  cases fb with
  | false => simp only [crcShift, Bool.false_eq_true, if_false, hshift, Bool.false_and, Bool.xor_false]
  | true => simp only [crcShift, if_true, BitVec.getLsbD_xor, hshift, Bool.true_and]

/-- A summand enters a shift linearly. -/
theorem crcShift_xor (fb : Bool) (x y : Byte) : crcShift fb (x ^^^ y) = crcShift fb x ^^^ y <<< 1 := by
  cases fb with
  | false => exact BitVec.shiftLeft_xor_distrib x y 1
  | true =>
    simp only [crcShift, if_true, BitVec.shiftLeft_xor_distrib]
    ac_rfl

/-! ## One iteration of the loop -/

/-- One iteration of the loop of `update`: the feedback is the bit shifted out (40_crc8.md R121). -/
def crcRound (s : Byte) : Byte := crcShift (s.getLsbD 7) s

theorem crcShifts_eq_iterate (n : Nat) (s : Byte) : crcShifts n s = crcRound^[n] s := by
  induction n generalizing s with
  | zero => rfl
  | succ n ih => exact ih (crcRound s)

/-- The feedback stands in bit 0 of the result, since the polynomial has a constant term, and with it known the other
bits shift back. -/
theorem crcRound_injective : Function.Injective crcRound := by
  intro x y h
  have hbit (i : Nat) : (crcRound x).getLsbD i = (crcRound y).getLsbD i := by rw [h]
  have hfb : x.getLsbD 7 = y.getLsbD 7 := by simpa only [crcRound, getLsbD_crcShift_zero] using hbit 0
  refine BitVec.eq_of_getLsbD_eq fun i hi => ?_
  obtain rfl | hlow : i = 7 ∨ i < 7 := by omega
  · exact hfb
  · simpa only [crcRound, getLsbD_crcShift_succ _ _ hlow, hfb, Bool.xor_left_inj] using hbit (i + 1)

/-! ## `update` -/

theorem crcUpdate_eq_iterate (s b : Byte) : crcUpdate s b = crcRound^[8] (s ^^^ b) := crcShifts_eq_iterate 8 _

/-- `update(s, b) = T[s ^ b]` (40_crc8.md R124 a). -/
theorem crcUpdate_eq_crcUpdate_zero_xor (s b : Byte) : crcUpdate s b = crcUpdate 0 (s ^^^ b) := by
  rw [crcUpdate, crcUpdate, show (0 : Byte) ^^^ (s ^^^ b) = s ^^^ b from BitVec.zero_xor]

/-- `T` loses nothing (40_crc8.md R124 a). -/
theorem crcUpdate_zero_injective : Function.Injective (crcUpdate 0) := by
  intro x y h
  rw [crcUpdate_eq_iterate, crcUpdate_eq_iterate] at h
  exact (BitVec.xor_right_inj 0).mp (crcRound_injective.iterate 8 h)

/-- The register becomes 0 on its own value and on no other byte (40_crc8.md R124 b). -/
theorem crcUpdate_eq_zero_iff {s b : Byte} : crcUpdate s b = 0 ↔ b = s := by
  have hzero : crcUpdate 0 0 = 0 := by decide
  rw [crcUpdate_eq_crcUpdate_zero_xor, crcUpdate_zero_injective.eq_iff' hzero]
  exact BitVec.xor_eq_zero_iff.trans eq_comm

/-! ## The bit-serial form -/

/-- A bit fed in beside the top of the register acts as the top bit of a byte added to the register. -/
theorem crcBitstep_xor (x y : Byte) : crcBitstep (x ^^^ y) (y.getLsbD 7) = crcRound x ^^^ y <<< 1 := by
  have hfb : ((x ^^^ y).getLsbD 7 ^^ y.getLsbD 7) = x.getLsbD 7 := by simp
  rw [crcBitstep, hfb, crcShift_xor, crcRound]

/-- After `n` of the byte's bits, bit 7 first, the register is `n` rounds of the byte-wide loop and the bits of the byte
that are still to come, moved to the top. -/
theorem foldl_crcBitstep_range (s b : Byte) {n : Nat} (hn : n ≤ 8) :
    (List.range n).foldl (fun c k => crcBitstep c (b.getLsbD (7 - k))) s = crcRound^[n] (s ^^^ b) ^^^ b <<< n := by
  induction n with
  | zero => simp
  | succ n ih =>
    have htop : b.getLsbD (7 - n) = (b <<< n).getLsbD 7 := by
      rw [BitVec.getLsbD_shiftLeft, decide_eq_false (show ¬ 7 < n by omega)]
      simp
    rw [List.range_succ, List.foldl_concat, ih (by omega), htop, crcBitstep_xor, Function.iterate_succ_apply',
      BitVec.shiftLeft_add]

/-- The bits of a byte, in the order in which the circuit takes them (40_crc8.md R127). -/
def crcBits (b : Byte) : List Bool := (List.range 8).map fun k => b.getLsbD (7 - k)

/-- Eight bitsteps with the bits of a byte are one `update` (40_crc8.md R123). -/
theorem foldl_crcBitstep_crcBits (s b : Byte) : (crcBits b).foldl crcBitstep s = crcUpdate s b := by
  have hgone : b <<< 8 = 0#8 := BitVec.shiftLeft_eq_zero (Nat.le_refl 8)
  rw [crcBits, List.foldl_map, foldl_crcBitstep_range s b (Nat.le_refl 8), hgone, BitVec.xor_zero, crcUpdate_eq_iterate]

/-! ## The fold over a message -/

theorem crcFold_eq_foldl (s : Byte) (m : Bytes) : crcFold s m = m.foldl crcUpdate s := by
  induction m generalizing s with
  | nil => rfl
  | cons b m ih => exact ih (crcUpdate s b)

theorem crcFold_append (s : Byte) (m n : Bytes) : crcFold s (m ++ n) = crcFold (crcFold s m) n := by
  simp only [crcFold_eq_foldl, List.foldl_append]

/-- Two appended bytes fold to 0 exactly when the second is the CRC behind the first (40_crc8.md R124 e). -/
theorem crcFold_append_pair_eq_zero_iff (m : Bytes) (x y : Byte) :
    crcFold Config.crcSeed (m ++ [x, y]) = 0 ↔ y = crcUpdate (crcCompute m) x := by
  rw [crcFold_append]
  exact crcUpdate_eq_zero_iff

/-- Settles O15: `update` is 0 on the old register alone, carried through the fold. -/
theorem crcResidueLaws : Obligations.CrcResidueLaws := by
  have hsum (m : Bytes) : crcUpdate (crcCompute m) (crcCompute m) = 0 := crcUpdate_eq_zero_iff.mpr rfl
  refine ⟨crcUpdate_eq_crcUpdate_zero_xor, fun _ _ h => crcUpdate_zero_injective h, fun m => ⟨?_, ?_⟩,
    crcFold_append_pair_eq_zero_iff⟩
  · exact (crcFold_append Config.crcSeed m [crcCompute m]).trans (hsum m)
  · exact (crcFold_append_pair_eq_zero_iff m _ _).mpr (hsum m).symm

end Sys2Proof.Machine
end

section
/-! SUPPORT. The CRC commands: what each leaves behind its operand test (40_crc8.md R125 to R129). -/

namespace Sys2Proof.Machine

/-! ## The operand tests -/

theorem fits_bit_iff {v : U32} : fits v 1 = true ↔ v.toNat ≤ 1 := fits_iff.trans Nat.lt_succ_iff

theorem fits_byte_iff {v : U32} : fits v 8 = true ↔ v.toNat ≤ 0xFF := fits_iff.trans Nat.lt_succ_iff

theorem setWidth_setWidth_of_fits_byte {v : U32} (h : fits v 8 = true) : (v.setWidth 8).setWidth 32 = v := by
  apply BitVec.eq_of_toNat_eq
  have hle := fits_byte_iff.mp h
  simp only [BitVec.toNat_setWidth]
  omega

theorem fits_setWidth_byte (b : Byte) : fits (b.setWidth 32) 8 = true := by
  rw [fits_iff, BitVec.toNat_setWidth_of_le (by decide)]
  exact b.isLt

/-- A CRC command whose test says yes exactly on the operands in range. -/
theorem crc_answers_or_refuses {p q : Prop} {b : Bool} (c : Byte) (s : State) (hp : b = true ↔ p) (hq : q → ¬ p) :
    (p → (if b then .next (setCrc c s) else .next (refuse .badOperand s) : Out) = .next (setCrc c s)) ∧
    (q → (if b then .next (setCrc c s) else .next (refuse .badOperand s) : Out) = .next (afterRefusal 0x31 s)) :=
  ⟨fun h => if_pos (hp.mpr h), fun h => if_neg fun hb => hq h (hp.mp hb)⟩

theorem exec_crcSet (v : U32) (s : State) :
    (v.toNat ≤ 0xFF → exec (.crcSet v) s = .next (setCrc (v.setWidth 8) s)) ∧
    (0xFF < v.toNat → exec (.crcSet v) s = .next (afterRefusal 0x31 s)) :=
  crc_answers_or_refuses _ s fits_byte_iff Nat.not_le_of_lt

theorem exec_crcBit (d : U32) (s : State) :
    (d.toNat ≤ 1 → exec (.crcBit d) s = .next (setCrc (crcBitstep s.crc (d.getLsbD 0)) s)) ∧
    (1 < d.toNat → exec (.crcBit d) s = .next (afterRefusal 0x31 s)) :=
  crc_answers_or_refuses _ s fits_bit_iff Nat.not_le_of_lt

theorem exec_crcUpdate (b : U32) (s : State) :
    (b.toNat ≤ 0xFF → exec (.crcUpdate b) s = .next (setCrc (crcUpdate s.crc (b.setWidth 8)) s)) ∧
    (0xFF < b.toNat → exec (.crcUpdate b) s = .next (afterRefusal 0x31 s)) :=
  crc_answers_or_refuses _ s fits_byte_iff Nat.not_le_of_lt

theorem exec_crcCompute (a len : U32) (s : State) :
    (a.toNat + len.toNat ≤ s.config.inCap.toNat →
      exec (.crcCompute a len) s = .next (setCrc (crcCompute (inOperand s a len)) s)) ∧
    (s.config.inCap.toNat < a.toNat + len.toNat → exec (.crcCompute a len) s = .next (afterRefusal 0x31 s)) :=
  crc_answers_or_refuses _ s inRange_iff Nat.not_le_of_lt

/-- WR_REG of register 0x00 is the register's other way in (10_state.md R47, 41_header_codecs.md R161). -/
theorem exec_wrReg_crc {v : U32} (h : fits v 8 = true) (s : State) :
    exec (.wrReg 0x00 v) s = .next (finish 0 0 .none { s with crc := v.setWidth 8 }) := if_pos h

/-! ## The bits of a byte, one command each -/

/-- CRC_BIT of one bit. -/
def crcBitOf (d : Bool) : Instr := .crcBit (if d then 1 else 0)

theorem exec_crcBitOf (d : Bool) (s : State) : exec (crcBitOf d) s = .next (setCrc (crcBitstep s.crc d) s) := by
  cases d with
  | false => exact (exec_crcBit 0 s).1 (by decide)
  | true => exact (exec_crcBit 1 s).1 (by decide)

/-- Of a run of CRC_BITs the register shows all and the answer the last. -/
theorem execAll_crcBitOf (d : Bool) (ds : List Bool) (s : State) :
    execAll ((d :: ds).map crcBitOf) s = .next (setCrc ((d :: ds).foldl crcBitstep s.crc) s) := by
  induction ds generalizing d s with
  | nil => simp only [List.map, execAll, exec_crcBitOf, List.foldl]
  | cons e ds ih =>
    rw [List.map_cons, execAll, exec_crcBitOf]
    exact ih e (setCrc (crcBitstep s.crc d) s)

theorem execAll_crcBits (b : Byte) (s : State) :
    execAll ((crcBits b).map crcBitOf) s = exec (.crcUpdate (b.setWidth 32)) s := by
  have hbyte : (b.setWidth 32).setWidth 8 = b := BitVec.setWidth_setWidth_of_le b (by decide)
  rw [(exec_crcUpdate _ s).1 (fits_byte_iff.mp (fits_setWidth_byte b)), hbyte, ← foldl_crcBitstep_crcBits]
  exact execAll_crcBitOf _ _ s

/-! ## The statements about the commands -/

/-- Settles O10: the command is its own row of the table, and its end. -/
theorem crcInitLoadsTheSeed : Obligations.CrcInitLoadsTheSeed := ⟨fun _ _ _ => rfl, fun _ => rfl⟩

/-- Settles O11: the operand that passes the test is the byte it is cut to. -/
theorem crcSetLoadsItsOperand : Obligations.CrcSetLoadsItsOperand := by
  refine ⟨fun _ _ _ => rfl, fun v s => ⟨fun hv => ?_, (exec_crcSet v s).2⟩⟩
  have hfits := fits_byte_iff.mpr hv
  refine ⟨?_, _, exec_wrReg_crc hfits s, rfl⟩
  rw [(exec_crcSet v s).1 hv, setCrc, setWidth_setWidth_of_fits_byte hfits]
  rfl

/-- Settles O12: the gates are the bits of one shift, and the register after eight of them is `update`'s. -/
theorem crcBitFollowsTheGates : Obligations.CrcBitFollowsTheGates := by
  refine ⟨fun _ _ _ => rfl, fun d s => ⟨fun hd => ?_, (exec_crcBit d s).2⟩, ?_⟩
  · refine ⟨_, (exec_crcBit d s).1 hd, ?_⟩
    simp only [crcBitstep, getLsbD_crcShift_zero, getLsbD_crcShift_succ, Nat.reduceLT]
    simp [Config.crcPoly]
  · exact execAll_crcBits

/-- Settles O13: the loop's rounds are the shifts with the bit shifted out. -/
theorem crcUpdateFoldsOneByte : Obligations.CrcUpdateFoldsOneByte := by
  refine ⟨fun _ _ _ => rfl, fun b s => ⟨fun hb => ?_, (exec_crcUpdate b s).2⟩⟩
  refine ⟨_, (exec_crcUpdate b s).1 hb, ?_, crcUpdate_eq_zero_iff⟩
  rw [crcUpdate_eq_iterate]
  exact (List.foldl_const crcRound _ (List.range 8)).symm

/-- Settles O14: the fold starts from the seed and takes the bytes at the addresses of the range. -/
theorem crcComputeFoldsTheRange : Obligations.CrcComputeFoldsTheRange := by
  refine ⟨fun _ _ _ => rfl, fun a len s => ⟨fun h => ?_, (exec_crcCompute a len s).2⟩⟩
  refine ⟨_, ?_, (exec_crcCompute a len s).1 h⟩
  rw [crcCompute, crcFold_eq_foldl, inOperand_eq_map]
  rfl

end Sys2Proof.Machine
end

section
/-! SUPPORT. The register map as a numbering of the registers, and what a register shows after a write (10_state.md
R47; 41_header_codecs.md R160, R161). -/

namespace Sys2Proof.Machine

/-! ## The numbers of the registers -/

/-- The number of a register (10_state.md R47). -/
def Reg.number : Reg → U32
  | .crc => 0x00
  | .status => 0x01
  | .errCode => 0x02
  | .errType => 0x03
  | .errPos => 0x04
  | .diagCount => 0x05
  | .wPhase => 0x06
  | .wPos => 0x07
  | .catCount => 0x08
  | .outValid => 0x09
  | .outLen => 0x0A
  | .csumValid => 0x0B
  | .eepromBytes => 0x0C
  | .eWpos => 0x0D
  | .pdiCtrl => 0x10
  | .pdiConf => 0x11
  | .syncImpulse => 0x12
  | .pdiConf2 => 0x13
  | .stationAlias => 0x14
  | .preRsvd => 0x15
  | .checksum => 0x16
  | .vendorId => 0x20
  | .productId => 0x21
  | .revisionId => 0x22
  | .serial => 0x23
  | .bsRxAddr => 0x24
  | .bsRxSize => 0x25
  | .bsTxAddr => 0x26
  | .bsTxSize => 0x27
  | .stdRxAddr => 0x28
  | .stdRxSize => 0x29
  | .stdTxAddr => 0x2A
  | .stdTxSize => 0x2B
  | .mbxProto => 0x2C
  | .eepromCode => 0x2D
  | .version => 0x2E

/-- Every register, in the order of the map. -/
def allRegs : List Reg :=
  [.crc, .status, .errCode, .errType, .errPos, .diagCount, .wPhase, .wPos, .catCount, .outValid, .outLen, .csumValid,
   .eepromBytes, .eWpos, .pdiCtrl, .pdiConf, .syncImpulse, .pdiConf2, .stationAlias, .preRsvd, .checksum, .vendorId,
   .productId, .revisionId, .serial, .bsRxAddr, .bsRxSize, .bsTxAddr, .bsTxSize, .stdRxAddr, .stdRxSize, .stdTxAddr,
   .stdTxSize, .mbxProto, .eepromCode, .version]

theorem mem_allRegs (x : Reg) : x ∈ allRegs := by cases x <;> decide

@[simp] theorem regOfNumber_number (x : Reg) : regOfNumber x.number.toNat = some x := by cases x <;> rfl

theorem eq_number_of_regOfNumber {n : Nat} {x : Reg} (h : regOfNumber n = some x) : n = x.number.toNat := by
  unfold regOfNumber at h
  split at h <;> cases h <;> rfl

/-- Two registers have two numbers, and a number names at most one. -/
theorem regOfNumber_eq_some_iff {r : U32} {x : Reg} : regOfNumber r.toNat = some x ↔ r = x.number :=
  ⟨fun h => BitVec.eq_of_toNat_eq (eq_number_of_regOfNumber h), fun h => h ▸ regOfNumber_number x⟩

/-- The unassigned numbers: no register has one of them (10_state.md R47). -/
theorem regOfNumber_unassigned {n : Nat} (h : 0x0E ≤ n ∧ n ≤ 0x0F ∨ 0x17 ≤ n ∧ n ≤ 0x1F ∨ 0x2F ≤ n) :
    regOfNumber n = none := by
  cases hx : regOfNumber n with
  | none => rfl
  | some x =>
    obtain rfl := eq_number_of_regOfNumber hx
    exact absurd h (by cases x <;> decide)

/-! ## RD_REG -/

/-- OUT_LEN is the one register that RD_REG cannot always read (41_header_codecs.md R160). -/
theorem regReadable_of_ne_outLen {x : Reg} (h : x ≠ .outLen) (s : State) : regReadable x s = true := by
  cases x with
  | outLen => exact absurd rfl h
  | _ => rfl

theorem regReadable_congr {s t : State} (h : t.outValid = s.outValid) (x : Reg) : regReadable x t = regReadable x s := by
  cases x with
  | outLen => exact h
  | _ => rfl

theorem exec_rdReg_readable {x : Reg} {s : State} (h : regReadable x s = true) :
    exec (.rdReg x.number) s = .next (finish (readReg x s) 0 .none s) := by
  simp only [exec, execRdReg, regOfNumber_number, h, if_true]

theorem exec_rdReg_unreadable {x : Reg} {s : State} (h : regReadable x s = false) :
    exec (.rdReg x.number) s = .next (refuse .badOperand s) := by
  simp only [exec, execRdReg, regOfNumber_number, h, Bool.false_eq_true, if_false]

theorem exec_rdReg_unassigned {r : U32} (h : regOfNumber r.toNat = none) (s : State) :
    exec (.rdReg r) s = .next (refuse .badOperand s) := by
  simp only [exec, execRdReg, h]

/-- No code of 60_exceptions.md R321 is the status ok. -/
theorem codeByte_ne_zero (c : Code) : codeByte c ≠ 0 := by cases c <;> decide

/-- A refusal is no answer: STATUS tells them apart. -/
theorem refuse_ne_finish (c : Code) (v0 v1 : U32) (x : Result) (s : State) : refuse c s ≠ finish v0 v1 x s :=
  fun h => codeByte_ne_zero c (congrArg State.status h)

/-- Everything RD_REG can answer (41_header_codecs.md R160). -/
theorem exec_rdReg_answers_iff {r u : U32} {s : State} :
    exec (.rdReg r) s = .next (finish u 0 .none s) ↔
      ∃ y : Reg, r = y.number ∧ regReadable y s = true ∧ readReg y s = u := by
  constructor
  · intro h
    cases hr : regOfNumber r.toNat with
    | none =>
      rw [exec_rdReg_unassigned hr] at h
      exact absurd (Host.Outcome.next.inj h) (refuse_ne_finish _ _ _ _ s)
    | some y =>
      obtain rfl := regOfNumber_eq_some_iff.mp hr
      cases hy : regReadable y s with
      | false =>
        rw [exec_rdReg_unreadable hy] at h
        exact absurd (Host.Outcome.next.inj h) (refuse_ne_finish _ _ _ _ s)
      | true =>
        rw [exec_rdReg_readable hy] at h
        exact ⟨y, rfl, hy, congrArg (·.rsp.val0) (Host.Outcome.next.inj h)⟩
  · rintro ⟨y, rfl, hy, rfl⟩
    exact exec_rdReg_readable hy

/-- Settles O20: the list of the statement is the register map without OUT_LEN, and the elements are what `readReg`
shows. -/
theorem rdRegAnswersTheRegisterMap : Obligations.RdRegAnswersTheRegisterMap := by
  refine ⟨fun _ _ _ => rfl, fun s => ⟨?_, fun hv => ?_, fun hv => ?_, fun r hr => ?_⟩⟩
  · have hanswers : ∀ x ∈ (allRegs.filter (· ≠ .outLen)).map (fun y => (y.number, readReg y s)),
        exec (.rdReg x.1) s = .next (finish x.2 0 .none s) := by
      simp only [List.forall_mem_map, List.mem_filter, decide_eq_true_eq]
      exact fun y hy => exec_rdReg_readable (regReadable_of_ne_outLen hy.2 s)
    exact hanswers
  · exact exec_rdReg_readable (x := .outLen) hv
  · exact exec_rdReg_unreadable (x := .outLen) hv
  · exact exec_rdReg_unassigned (regOfNumber_unassigned hr) s

/-! ## WR_REG -/

theorem setWidth_setWidth_of_fits {v : U32} {n : Nat} (h : fits v n = true) : (v.setWidth n).setWidth 32 = v := by
  apply BitVec.eq_of_toNat_eq
  rw [BitVec.toNat_setWidth, BitVec.toNat_setWidth, Nat.mod_eq_of_lt (fits_iff.mp h), Nat.mod_eq_of_lt v.isLt]

/-- A register shows what was written to it, whatever the value (41_header_codecs.md R161). -/
theorem readReg_writeReg_self {x : Reg} {v : U32} (hw : regWritable x = true) (hv : fits v (regWidth x) = true)
    (s : State) : readReg x (writeReg x v s) = v := by
  cases x with
  | preRsvd => exact u32of_extract v
  | vendorId | productId | revisionId | serial => rfl
  | crc | pdiCtrl | pdiConf | syncImpulse | pdiConf2 | stationAlias | checksum | bsRxAddr | bsRxSize | bsTxAddr | bsTxSize
  | stdRxAddr | stdRxSize | stdTxAddr | stdTxSize | mbxProto | eepromCode | version =>
    exact setWidth_setWidth_of_fits hv
  | status | errCode | errType | errPos | diagCount | wPhase | wPos | catCount | outValid | outLen | csumValid
  | eepromBytes | eWpos => exact absurd hw Bool.false_ne_true

/-- The register whose element a register shows: EEPROM_BYTES is computed from EEPROM_CODE (41_header_codecs.md R156). -/
def Reg.source : Reg → Reg
  | .eepromBytes => .eepromCode
  | y => y

/-- A write reaches the registers that show the written element, and no others: for each pair of registers the two
sides are the same element of the state (41_header_codecs.md R161). -/
theorem readReg_writeReg (x y : Reg) (v : U32) (s : State) :
    readReg y (writeReg x v s) = if y.source = x then readReg y (writeReg y.source v s) else readReg y s := by
  cases y <;> cases x <;> rfl

theorem Reg.source_eq_or (y : Reg) : y.source = y ∨ y = .eepromBytes ∧ y.source = .eepromCode := by
  cases y with
  | eepromBytes => exact .inr ⟨rfl, rfl⟩
  | _ => exact .inl rfl

theorem readReg_finish {y : Reg} (h : y ≠ .status) (v0 v1 : U32) (r : Result) (s : State) :
    readReg y (finish v0 v1 r s) = readReg y s := by
  cases y with
  | status => exact absurd rfl h
  | _ => rfl

theorem exec_wrReg_number (x : Reg) (v : U32) (s : State) :
    exec (.wrReg x.number v) s =
      if regWritable x && fits v (regWidth x) then .next (finish 0 0 .none (writeReg x v s))
      else .next (refuse .badOperand s) := by
  simp only [exec, execWrReg, regOfNumber_number]

/-- After a write of `x` RD_REG answers for every other register what it answered before (41_header_codecs.md R161). -/
theorem exec_rdReg_after_write {x : Reg} {r u v : U32} {s : State} (hx : r ≠ x.number) (hstatus : r ≠ 0x01)
    (heeprom : ¬ (x.number = 0x2D ∧ r = 0x0C)) (h : exec (.rdReg r) s = .next (finish u 0 .none s)) :
    exec (.rdReg r) (finish 0 0 .none (writeReg x v s)) =
      .next (finish u 0 .none (finish 0 0 .none (writeReg x v s))) := by
  obtain ⟨y, rfl, hy, rfl⟩ := exec_rdReg_answers_iff.mp h
  obtain ⟨c, p, g, hwrite, -⟩ := writeReg_fields x v s
  have hsource : y.source ≠ x := by
    rintro rfl
    obtain hself | ⟨rfl, hcode⟩ := y.source_eq_or
    · exact hx (congrArg Reg.number hself.symm)
    · exact heeprom ⟨congrArg Reg.number hcode, rfl⟩
  refine exec_rdReg_answers_iff.mpr ⟨y, rfl, ?_, ?_⟩
  · rw [regReadable_congr (s := s) (by rw [hwrite]; rfl)]
    exact hy
  · rw [readReg_finish (by rintro rfl; exact hstatus rfl), readReg_writeReg, if_neg hsource]

/-- The RW registers (10_state.md R47). -/
def rwRegs : List Reg := allRegs.filter regWritable

theorem mem_rwRegs_iff {x : Reg} : x ∈ rwRegs ↔ regWritable x = true := by simp [rwRegs, mem_allRegs]

theorem ne_of_regWritable {x y : Reg} (hx : regWritable x = true) (hy : regWritable y = false) : x ≠ y := by
  rintro rfl
  exact absurd hx (hy ▸ Bool.false_ne_true)

/-- Settles O21: the list of the statement is the RW registers with their widths; a write is what `writeReg` leaves, read
back through `readReg`. -/
theorem wrRegWritesOneRegister : Obligations.WrRegWritesOneRegister := by
  refine ⟨fun _ _ _ => rfl, fun regs hregs v s => ?_⟩
  obtain rfl : regs = rwRegs.map (fun x => (x.number, regWidth x)) := hregs
  simp only [List.forall_mem_map, List.map_map, mem_rwRegs_iff]
  refine ⟨fun x hx hv => ?_, fun x hx hv => ?_, fun r hr => ?_⟩
  · have hfits := fits_iff.mpr hv
    have hreadable : regReadable x (finish 0 0 .none (writeReg x v s)) = true :=
      regReadable_of_ne_outLen (ne_of_regWritable hx rfl) _
    obtain ⟨c, p, g, hwrite, hcsum⟩ := writeReg_fields x v s
    refine ⟨finish 0 0 .none (writeReg x v s), ?_, ?_, fun r u => exec_rdReg_after_write, ?_, ?_⟩
    · rw [exec_wrReg_number, hx, hfits]
      rfl
    · refine exec_rdReg_answers_iff.mpr ⟨x, rfl, hreadable, ?_⟩
      rw [readReg_finish (ne_of_regWritable hx rfl), readReg_writeReg_self hx hfits]
    · rw [hwrite]
      exact hcsum
    · rw [hwrite]
      rfl
  · have hfits : fits v (regWidth x) = false := Bool.eq_false_iff.mpr fun h => absurd (fits_iff.mp h) (Nat.not_lt.mpr hv)
    rw [exec_wrReg_number, hx, hfits]
    rfl
  · cases hnum : regOfNumber r.toNat with
    | none => simp only [exec, execWrReg, hnum]; rfl
    | some x =>
      obtain rfl := regOfNumber_eq_some_iff.mp hnum
      have hx : regWritable x = false :=
        Bool.eq_false_iff.mpr fun h => hr (List.mem_map_of_mem (f := Reg.number) (mem_rwRegs_iff.mpr h))
      rw [exec_wrReg_number, hx]
      rfl

end Sys2Proof.Machine
end

section
/-! SUPPORT. The two header blocks: the preamble's flag, what the wire instructions of position load, and the EEPROM
size scaling (41_header_codecs.md R141, R142, R151, R156; 44_walker.md R262, R263). -/

namespace Sys2Proof.Machine

/-! ## The preamble's flag -/

theorem checksumFlag_eq_valid_iff {p : Bytes} : checksumFlag p = .valid ↔ crcFold Config.crcSeed p = 0 := by
  simp [checksumFlag]

theorem checksumFlag_of_residue {p : Bytes} (h : crcFold Config.crcSeed p ≠ 0) : checksumFlag p = .invalid := if_neg h

/-- The last two bytes of a preamble, behind the 14 that the checksum covers (30_encoding.md R81). -/
theorem take_append_checksum_word {p : Bytes} (h : p.length = 16) : p.take 14 ++ [rd8 p 14, rd8 p 15] = p := by
  rw [rd8_of_lt (by omega), rd8_of_lt (by omega)]
  calc p.take 14 ++ [p[14], p[15]] = p.take 16 := by simp [List.take_add_one, h]
    _ = p := List.take_of_length_le h.le

/-- Settles O17: byte 15 is the one byte that takes the residue to 0, and `update` is 0 on the register's own value
alone. -/
theorem preambleIsSelfCertifying : Obligations.PreambleIsSelfCertifying := by
  intro p hp
  have hvalid : checksumFlag p = .valid ↔ rd8 p 15 = crcUpdate (crcCompute (p.take 14)) (rd8 p 14) := by
    rw [checksumFlag_eq_valid_iff, ← crcFold_append_pair_eq_zero_iff, take_append_checksum_word hp]
  refine ⟨hvalid, fun hzero => hvalid.trans ?_⟩
  rw [hzero, eq_comm, crcUpdate_eq_zero_iff]

/-! ## PREAMBLE -/

theorem exec_preamble_valid {p : Bytes} (h : crcFold Config.crcSeed p = 0) (s : State) :
    exec (.preamble p) s = .next (enterStdConfig { s with pre := loadPreamble p .valid }) := by
  simp only [exec, execPreamble, checksumFlag_eq_valid_iff.mpr h]

theorem exec_preamble_invalid {p : Bytes} (h : crcFold Config.crcSeed p ≠ 0) (s : State) :
    exec (.preamble p) s =
      .next (withDiag .checksumInvalid 0 0 enterStdConfig { s with pre := loadPreamble p .invalid }) := by
  simp only [exec, execPreamble, checksumFlag_of_residue h]

/-! ## The fetch of a header block -/

/-- The first bytes of a longer read, as the bytes at their addresses. -/
theorem take_memRead {s : State} {a k n : Nat} (h : k ≤ n) :
    (memRead s a n).take k = (List.range k).map (fun j => inByte s.input (a + j)) := by
  obtain ⟨m, rfl⟩ := Nat.exists_eq_add_of_le h
  rw [memRead, readBlock_add, List.take_left' (readBlock_length _ _ _), readBlock_eq_map]

theorem step_of_fetch_error {s : State} {e : DecodeError} (hw : walking s.w.phase = true) (hf : fetchItem s = .error e) :
    step s = .next (fetchFailed e s) :=
  (step_walking hw).trans (walkStep_of_fetch_error hf)

theorem raiseDecode_eq_afterDecodeError (c : Code) (t : U16) (p : U32) (s : State) :
    raiseDecode c t p s = afterDecodeError (codeByte c) t p s := rfl

theorem fetchItem_preamble_short {s : State} (hp : s.w.phase = .preamble) (hn : s.w.limit.toNat < 16) :
    fetchItem s = .error .headerShort := by
  rw [fetchItem_preamble hp]
  exact if_pos (by simpa [Config.preBytes] using hn)

theorem fetchItem_preamble_long {s : State} (hp : s.w.phase = .preamble) (hn : 16 ≤ s.w.limit.toNat) :
    fetchItem s = .ok (.preamble ((List.range 16).map fun k => inByte s.input (0 + k))) := by
  rw [fetchItem_preamble hp, ← take_memRead hn]
  exact if_neg (by simpa [Config.preBytes] using hn)

theorem fetchItem_stdConfig_short {s : State} (hp : s.w.phase = .stdConfig) (hn : s.w.limit.toNat < 128) :
    fetchItem s = .error .configShort := by
  rw [fetchItem_stdConfig hp]
  exact if_pos (by simp only [memRead_length, Config.cfgBytes]; omega)

theorem fetchItem_stdConfig_long {s : State} (hp : s.w.phase = .stdConfig) (hn : 128 ≤ s.w.limit.toNat) :
    fetchItem s = .ok (.stdconfig ((List.range 112).map fun k => inByte s.input (16 + k))) := by
  rw [fetchItem_stdConfig hp, ← take_memRead (show 112 ≤ s.w.limit.toNat - 16 by omega)]
  exact if_neg (by simp only [memRead_length, Config.cfgBytes]; omega)

/-! ## The statements about the header blocks -/

/-- Settles O16: the two residues, and the two outcomes of the fetch. -/
theorem preambleLoadsTheRegisters : Obligations.PreambleLoadsTheRegisters := by
  refine ⟨fun p s _ hroom => ?_, fun s hp hn => ?_, fun s hp hn => ?_⟩
  · by_cases hresidue : crcFold 0xFF p = 0
    · rw [exec_preamble_valid hresidue]
      simp only [hresidue, if_true]
      rfl
    · have hdiag := hroom.resolve_left hresidue
      obtain ⟨hfull, -⟩ | ⟨-, h⟩ := withDiag_cases .checksumInvalid 0 0 enterStdConfig
        { s with pre := loadPreamble p .invalid }
      · exact absurd hfull hdiag
      · rw [exec_preamble_invalid hresidue, h]
        simp only [hresidue, if_false]
        rfl
  · exact step_of_fetch_error (by rw [hp]; rfl) (fetchItem_preamble_short hp hn)
  · have hfetch := fetchItem_preamble_long hp hn
    simp only [Nat.zero_add] at hfetch
    exact step_of_fetched (by rw [hp]; rfl) hfetch

/-- Settles O18: the load, and the two outcomes of the fetch. -/
theorem stdConfigLoadsTheRegisters : Obligations.StdConfigLoadsTheRegisters := by
  refine ⟨fun _ _ _ => rfl, fun s hp hn => ?_, fun s hp hn => ?_⟩
  · exact step_of_fetch_error (by rw [hp]; rfl) (fetchItem_stdConfig_short hp hn)
  · exact step_of_fetched (by rw [hp]; rfl) (fetchItem_stdConfig_long hp hn)

/-! ## The EEPROM size -/

theorem eepromCode_of_lt {b : Nat} (h : b < 128) : eepromCode b = none := if_pos h

theorem eepromCode_of_le {b : Nat} (h : 128 ≤ b) : eepromCode b = some ((b - 128) / 128) := if_neg (Nat.not_lt.mpr h)

/-- Settles O19: scaling up and division by the same 128. -/
theorem eepromSizeScaling : Obligations.EepromSizeScaling := by
  refine ⟨fun c => ?_, fun b => eepromCode_of_lt, fun b hb => ⟨eepromCode_of_le hb, by omega⟩⟩
  have hc := c.isLt
  have hbytes : eepromBytes c = c.toNat * 128 + 128 := rfl
  have hle : 128 ≤ eepromBytes c := by omega
  refine ⟨hbytes, hle, by omega, by omega, ?_⟩
  rw [eepromCode_of_le hle, hbytes, Nat.add_sub_cancel, Nat.mul_div_cancel _ (by omega)]

end Sys2Proof.Machine
end

section
/-! SUPPORT. Of ENCODE that ends ok, the first unit of OUT: the preamble, whose residue was tested, and which no later
unit touches (41_header_codecs.md R145, R148; 45_writer.md R293, R301). -/

namespace Sys2Proof.Machine

/-! ## Later units -/

/-- `v` is a later state of the writer than `u`: the cursor went no way back, and the bytes below its old place are the
same (45_writer.md R301). -/
structure Extends (u v : State) : Prop where
  cursor : u.e.wpos.toNat ≤ v.e.wpos.toNat
  below : ∀ x, x < u.e.wpos.toNat → outByte v.out x = outByte u.out x

theorem Extends.refl (u : State) : Extends u u := ⟨Nat.le_refl _, fun _ _ => rfl⟩

theorem Extends.trans {u v w : State} (h : Extends u v) (k : Extends v w) : Extends u w :=
  ⟨h.cursor.trans k.cursor, fun x hx => (k.below x (hx.trans_le h.cursor)).trans (h.below x hx)⟩

/-- A unit below a 32-bit capacity. -/
theorem extends_writeUnit {cap : U32} {b : Bytes} {u : State} (h : u.e.wpos.toNat + b.length ≤ cap.toNat) :
    Extends u (writeUnit b u) := by
  have hcap := cap.isLt
  refine ⟨by rw [writeUnit_wpos_toNat (by omega)]; omega, fun x hx => ?_⟩
  rw [outByte_writeUnit, if_neg (by omega)]

theorem extends_categoryStep {cap : U32} {k : Nat} {c : Category} {u v : State} (h : categoryStep cap k c u = .ok v) :
    Extends u v := by
  obtain ⟨w, rfl, hcases⟩ := categoryStep_cases cap k c u
  have hidx : Extends u { u with e := { u.e with idx := k } } := ⟨Nat.le_refl _, fun _ _ => rfl⟩
  obtain ⟨-, e⟩ | ⟨-, ⟨-, e⟩ | ⟨-, -, e⟩ | ⟨-, -, -, e⟩ | ⟨-, -, hfit, e⟩⟩ := hcases <;> rw [e] at h <;> cases h
  · exact hidx
  · exact hidx.trans (extends_writeUnit hfit)

theorem except_bind_eq_ok {x : Except State State} {f : State → Except State State} {v : State}
    (h : x.bind f = .ok v) : ∃ u, x = .ok u ∧ f u = .ok v := by
  cases x with
  | ok u => exact ⟨u, rfl, h⟩
  | error t => cases h

theorem extends_categorySteps {cap : U32} {k : Nat} {cs : List Category} {u v : State}
    (h : categorySteps cap k cs u = .ok v) : Extends u v := by
  induction cs generalizing k u with
  | nil => cases h; exact .refl _
  | cons c cs ih =>
    rw [categorySteps_cons] at h
    obtain ⟨w, hw, hv⟩ := except_bind_eq_ok h
    exact (extends_categoryStep hw).trans (ih hv)

theorem extends_terminatorStep {cap : U32} {u v : State} (h : terminatorStep cap u = .ok v) : Extends u v := by
  unfold terminatorStep at h
  split at h
  · cases h
  next hroom =>
    cases h
    exact extends_writeUnit (cap := cap) (by simpa [overflows] using hroom)

/-! ## The steps of an ENCODE that ends ok -/

theorem capacityStep_ok {cap : U32} {s u : State} (h : capacityStep cap s = .ok u) :
    u = s ∧ eepromBytes s.cfg.eepromCode ≤ cap.toNat := by
  unfold capacityStep at h
  split at h <;> cases h
  exact ⟨rfl, by omega⟩

theorem preambleStep_ok {s u : State} (h : preambleStep s = .ok u) :
    u = writeUnit (encodePreamble s.pre) s ∧ crcFold Config.crcSeed (encodePreamble s.pre) = 0 := by
  unfold preambleStep at h
  split at h <;> cases h
  exact ⟨rfl, ‹_›⟩

/-- The steps of ENCODE that ended ok: the preamble at the start, folding to 0, and then only units behind it
(45_writer.md R290). -/
theorem encodeSteps_ok {cap : U32} {opts : BitVec 3} {s t : State} (h : encodeSteps cap (startEncode opts s) = .ok t) :
    crcFold Config.crcSeed (encodePreamble s.pre) = 0 ∧
      Extends (writeUnit (encodePreamble s.pre) (startEncode opts s)) t := by
  obtain ⟨u, hu, h⟩ := except_bind_eq_ok h
  obtain ⟨rfl, hcap⟩ := capacityStep_ok hu
  obtain ⟨u, hu, h⟩ := except_bind_eq_ok h
  obtain ⟨rfl, hzero⟩ := preambleStep_ok hu
  obtain ⟨u, hu, h⟩ := except_bind_eq_ok h
  have hcfg : Extends (writeUnit (encodePreamble s.pre) (startEncode opts s))
      (stdConfigStep (writeUnit (encodePreamble s.pre) (startEncode opts s))) := by
    refine extends_writeUnit (cap := cap) ?_
    rw [encodeStdConfig_length]
    exact (show 16 + 112 ≤ eepromBytes s.cfg.eepromCode by simp [eepromBytes]).trans hcap
  exact ⟨hzero, (hcfg.trans (extends_categorySteps hu)).trans (extends_terminatorStep h)⟩

/-- STATUS is 0 after an ENCODE only when all its steps went through (45_writer.md R304, R305). -/
theorem exec_encode_ok {cap opts : U32} {s t : State} (h : exec (.encode cap opts) s = .next t) (hok : t.status = 0) :
    ∃ u, encodeSteps cap (startEncode (opts.setWidth 3) s) = .ok u ∧ t = finishEncode u := by
  simp only [exec, execEncode] at h
  split at h
  · split at h <;> cases h
    next u hu => exact ⟨u, hu, rfl⟩
    next hu =>
      obtain ⟨c, ty, p, u, rfl, -⟩ := encodeSteps_onlyRaises cap _ _ hu
      exact absurd hok (codeByte_ne_zero c)
  · cases h
    exact absurd hok (codeByte_ne_zero .badOperand)

/-- Settles O46: the first 16 bytes of OUT are the preamble that passed the test. -/
theorem emittedPreambleFoldsToZero : Obligations.EmittedPreambleFoldsToZero := by
  intro cap opts s t h hok
  obtain ⟨u, hsteps, rfl⟩ := exec_encode_ok h hok
  obtain ⟨hzero, hext⟩ := encodeSteps_ok hsteps
  refine ⟨encodePreamble s.pre, rfl, fun k hk => ?_, hzero, checksumFlag_eq_valid_iff.mpr hzero⟩
  have hfirst := outByte_writeUnit (encodePreamble s.pre) (startEncode (opts.setWidth 3) s) k
  rw [if_pos ⟨Nat.zero_le k, by simpa using hk⟩] at hfirst
  exact (hext.below k hk).trans hfirst

end Sys2Proof.Machine
end

section
/-! SUPPORT. The category registry: what APPEND, FIND, REMOVE_LAST and SORT answer behind their tests, and the two
read-out commands (42_registry.md R170 to R181; 60_exceptions.md R333). -/

namespace Sys2Proof.Machine

theorem refuse_eq_afterRefusal (c : Code) (s : State) : refuse c s = afterRefusal (codeByte c) s := rfl

/-! ## The least index -/

/-- What the statements call the least index, as the library's search. -/
theorem findIdx?_eq_some_of_least {α : Type} {p : α → Bool} {l : List α} {k : Nat} {x : α} (hk : l[k]? = some x)
    (hx : p x = true) (hleast : ∀ j y, j < k → l[j]? = some y → p y = false) : l.findIdx? p = some k := by
  obtain ⟨hlt, rfl⟩ := List.getElem?_eq_some_iff.mp hk
  refine List.findIdx?_eq_some_iff_getElem.mpr ⟨hlt, hx, fun j hj => ?_⟩
  rw [hleast j l[j] hj (List.getElem?_eq_getElem _)]
  exact Bool.false_ne_true

/-! ## APPEND -/

theorem appendPayload_eq_none_iff {t : U16} {p : Bytes} :
    appendPayload t p = none ↔ t ≠ 20 ∧ decodePayload t p = none := by
  unfold appendPayload
  split
  next ht => simp [ht]
  next ht => exact (and_iff_right ht).symm

theorem appendPayload_eq_some_iff {t : U16} {p : Bytes} {v : Payload} :
    appendPayload t p = some v ↔ t = 20 ∧ v = .datatypes ∨ t ≠ 20 ∧ decodePayload t p = some v := by
  unfold appendPayload
  split
  next ht => simp [ht, eq_comm]
  next ht => exact ((or_iff_right fun h => ht h.1).trans (and_iff_right ht)).symm

theorem exec_append_of_range {a len : U32} {s : State} (hin : a.toNat + len.toNat ≤ s.config.inCap.toNat)
    (hlen : 4 ≤ len.toNat) : exec (.append a len) s = .next (appendSection (inOperand s a len) s) :=
  if_pos (by rw [inRange_iff.mpr hin, decide_eq_true hlen]; rfl)

theorem exec_append_of_not_range {a len : U32} {s : State}
    (h : s.config.inCap.toNat < a.toNat + len.toNat ∨ len.toNat < 4) :
    exec (.append a len) s = .next (afterRefusal 0x31 s) := by
  refine if_neg fun htest => ?_
  obtain ⟨hin, hlen⟩ := Bool.and_eq_true_iff.mp htest
  have hin := inRange_iff.mp hin
  have hlen := of_decide_eq_true hlen
  omega

theorem appendSection_of_ill_formed {b : Bytes} (s : State)
    (h : b.length ≠ 4 + 2 * (rd16 b 2).toNat ∨ rd16 b 0 ∉ categoryTypes) :
    appendSection b s = afterRefusal 0x31 s := by
  unfold appendSection
  split
  · rfl
  next hlen =>
    have htype : categoryTypes.contains (rd16 b 0) = false :=
      Bool.eq_false_iff.mpr fun hmem => h.resolve_left hlen (List.contains_iff_mem.mp hmem)
    rw [htype]
    rfl

section

variable {b : Bytes} {s : State} (hlen : b.length = 4 + 2 * (rd16 b 2).toNat) (htype : rd16 b 0 ∈ categoryTypes)

include hlen htype

theorem appendSection_of_full (hcap : s.config.catCap = some s.cats.length) :
    appendSection b s = afterRefusal 0x33 s := by
  rw [appendSection, if_neg (not_not.mpr hlen), List.contains_iff_mem.mpr htype, atCapacity_iff.mpr hcap]
  rfl

theorem appendSection_of_undecodable (hcap : s.config.catCap ≠ some s.cats.length)
    (hnone : appendPayload (rd16 b 0) (b.drop 4) = none) : appendSection b s = afterRefusal 0x31 s := by
  rw [appendSection, if_neg (not_not.mpr hlen), List.contains_iff_mem.mpr htype, hnone,
    if_neg (c := atCapacity _ _ = true) (mt atCapacity_iff.mp hcap)]
  rfl

theorem appendSection_of_decoded {v : Payload} (hcap : s.config.catCap ≠ some s.cats.length)
    (hsome : appendPayload (rd16 b 0) (b.drop 4) = some v) :
    appendSection b s = finish (countWord s.cats.length) 0 .none
      (catsAppend { type := rd16 b 0, sizeBytes := 2 * (rd16 b 2).toNat, payload := v } s) := by
  rw [appendSection, if_neg (not_not.mpr hlen), List.contains_iff_mem.mpr htype, hsome,
    if_neg (c := atCapacity _ _ = true) (mt atCapacity_iff.mp hcap)]
  rfl

end

/-- Settles O48: the tests in their order, and behind them the node. -/
theorem appendStoresTheSection : Obligations.AppendStoresTheSection := by
  refine ⟨fun _ _ _ => rfl, fun a len s b hb => ?_⟩
  rw [← inOperand_eq_map] at hb
  have hlength : b.length = len.toNat := by rw [hb]; exact memRead_length s _ _
  refine ⟨fun h => ?_, fun hin hlen htype => ?_⟩
  · by_cases hrange : s.config.inCap.toNat < a.toNat + len.toNat ∨ len.toNat < 4
    · exact exec_append_of_not_range hrange
    · have hill : b.length ≠ 4 + 2 * (rd16 b 2).toNat ∨ rd16 b 0 ∉ categoryTypes := by
        rw [hlength]
        exact (or_assoc.mpr h).resolve_left hrange
      rw [exec_append_of_range (by omega) (by omega), ← hb, appendSection_of_ill_formed s hill]
  · rw [exec_append_of_range hin (by omega), ← hb]
    rw [← hlength] at hlen
    refine ⟨fun hfull => ?_, fun hroom => ⟨fun hne hnone => ?_, fun v hv => ?_⟩⟩
    · rw [appendSection_of_full hlen htype hfull]
    · rw [appendSection_of_undecodable hlen htype hroom (appendPayload_eq_none_iff.mpr ⟨hne, hnone⟩)]
    · rw [appendSection_of_decoded hlen htype hroom (appendPayload_eq_some_iff.mpr hv)]
      rfl

/-! ## FIND and FIND_NEIGHBOR -/

theorem firstOfType_eq_findIdx? (t : U16) (cs : List Category) : firstOfType t cs = cs.findIdx? (·.type == t) := by
  induction cs with
  | nil => rfl
  | cons c cs ih =>
    rw [firstOfType, List.findIdx?_cons, ih]
    by_cases hc : c.type = t
    · simp [hc]
    · cases hcs : cs.findIdx? (·.type == t) <;> simp [hc]

theorem exec_find_of_wide {t : U32} (h : 0xFFFF < t.toNat) (s : State) :
    exec (.find t) s = .next (afterRefusal 0x31 s) := by
  have hfits : ¬ fits t 16 = true := by rw [fits_iff]; omega
  exact congrArg Host.Outcome.next (if_neg hfits)

/-- The cut to 16 bits loses nothing of a type that passes the width test. -/
theorem type_beq_setWidth {t : U32} (h : t.toNat ≤ 0xFFFF) (c : Category) :
    (c.type == t.setWidth 16) = decide (c.type.toNat = t.toNat) := by
  have ht : (t.setWidth 16).toNat = t.toNat := by
    rw [BitVec.toNat_setWidth]
    omega
  rw [← ht, beq_eq_decide]
  exact decide_eq_decide.mpr BitVec.toNat_inj.symm

theorem exec_find_of_fits {t : U32} (h : t.toNat ≤ 0xFFFF) (s : State) :
    exec (.find t) s = .next ((s.cats.findIdx? (fun c => decide (c.type.toNat = t.toNat))).elim (finish 0 0 .none s)
      (fun k => finish 1 (countWord k) .none s)) := by
  have hfits : fits t 16 = true := fits_iff.mpr (by omega)
  have hfirst : firstOfType (t.setWidth 16) s.cats = s.cats.findIdx? (fun c => decide (c.type.toNat = t.toNat)) := by
    rw [firstOfType_eq_findIdx?]
    exact congrArg (s.cats.findIdx? ·) (funext (type_beq_setWidth h))
  rw [← hfirst]
  refine congrArg Host.Outcome.next ((if_pos hfits).trans ?_)
  cases firstOfType (t.setWidth 16) s.cats <;> rfl

/-- FIND_NEIGHBOR behind its index test is FIND (42_registry.md R178). -/
theorem exec_findNeighbor_of_lt {i : U32} {s : State} (h : i.toNat < s.cats.length) (t : U32) :
    exec (.findNeighbor i t) s = exec (.find t) s := if_pos h

theorem exec_findNeighbor_of_le {i : U32} {s : State} (h : s.cats.length ≤ i.toNat) (t : U32) :
    exec (.findNeighbor i t) s = .next (afterRefusal 0x36 s) := if_neg (Nat.not_lt.mpr h)

/-- Settles O49: the search of FIND is for the least index, and FIND_NEIGHBOR's is the same one. -/
theorem findAnswersTheFirstOfTheType : Obligations.FindAnswersTheFirstOfTheType := by
  refine ⟨fun _ _ _ => rfl, fun _ _ _ => rfl, fun s i t => ⟨fun h => exec_find_of_wide h s,
    fun h => exec_findNeighbor_of_le h t, fun hi h => ?_, fun h => ⟨fun k c hk hc hleast => ?_, fun hall => ?_⟩⟩⟩
  · rw [exec_findNeighbor_of_lt hi, exec_find_of_wide h]
  · have hfind : exec (.find t) s = .next (finish 1 (BitVec.ofNat 32 k) .none s) := by
      rw [exec_find_of_fits h, findIdx?_eq_some_of_least hk (decide_eq_true hc)
        fun j d hj hd => decide_eq_false (hleast j d hj hd)]
      rfl
    exact ⟨hfind, fun hi => (exec_findNeighbor_of_lt hi t).trans hfind⟩
  · have hfind : exec (.find t) s = .next (finish 0 0 .none s) := by
      rw [exec_find_of_fits h, List.findIdx?_eq_none_iff.mpr fun c hc => decide_eq_false (hall c hc)]
      rfl
    exact ⟨hfind, fun hi => (exec_findNeighbor_of_lt hi t).trans hfind⟩

/-! ## REMOVE_LAST -/

theorem exec_removeLast_of_nil {s : State} (h : s.cats = []) :
    exec .removeLast s = .next (afterRefusal 0x32 s) := by
  simp only [exec, execRemoveLast, h, refuse_eq_afterRefusal, codeByte]

theorem exec_removeLast_of_ne_nil {s : State} (h : s.cats ≠ []) :
    exec .removeLast s = .next (finish 0 0 .none { s with cats := s.cats.dropLast }) := by
  obtain ⟨c, cs, hcs⟩ := List.exists_cons_of_ne_nil h
  simp only [exec, execRemoveLast, hcs]

/-- Settles O50: on a non-empty list, what is left is the list without its tail. -/
theorem removeLastTakesTheTail : Obligations.RemoveLastTakesTheTail := by
  refine ⟨fun _ _ _ => rfl, fun s => ⟨exec_removeLast_of_nil, fun front c hcats => ?_⟩⟩
  rw [exec_removeLast_of_ne_nil (by simp [hcats]), hcats, List.dropLast_concat]

/-! ## SORT -/

theorem sortByType_pairwise (cs : List Category) :
    (sortByType cs).Pairwise (fun c d => c.type.toNat ≤ d.type.toNat) := by
  have : Std.Total (fun c d : Category => c.type.toNat ≤ d.type.toNat) := ⟨fun _ _ => Nat.le_total _ _⟩
  have : IsTrans Category (fun c d => c.type.toNat ≤ d.type.toNat) := ⟨fun _ _ _ => Nat.le_trans⟩
  rw [sortByType_eq_insertionSort]
  exact List.pairwise_insertionSort _ cs

theorem sortByType_of_pairwise {cs : List Category} (h : cs.Pairwise (fun c d => c.type.toNat ≤ d.type.toNat)) :
    sortByType cs = cs :=
  (sortByType_eq_insertionSort cs).trans h.insertionSort_eq

/-- The nodes of one type are an ascending sublist, which insertion sort keeps; as many stand in the permutation, so
they are all of that type in it (42_registry.md R175). -/
theorem sortByType_filter_type (cs : List Category) (t : U16) :
    (sortByType cs).filter (·.type == t) = cs.filter (·.type == t) := by
  have htype : ∀ c ∈ cs.filter (·.type == t), c.type = t := fun c hc => beq_iff_eq.mp (List.mem_filter.mp hc).2
  have hsorted : (cs.filter (·.type == t)).Pairwise (fun c d => c.type.toNat ≤ d.type.toNat) :=
    List.pairwise_of_forall_mem_list fun c hc d hd => by rw [htype c hc, htype d hd]
  have hsub : (cs.filter (·.type == t)).Sublist (sortByType cs) := by
    rw [sortByType_eq_insertionSort]
    exact List.sublist_insertionSort hsorted List.filter_sublist
  have hfilter := hsub.filter (·.type == t)
  simp only [List.filter_filter, Bool.and_self] at hfilter
  exact (hfilter.eq_of_length ((sortByType_perm cs).filter _).length_eq.symm).symm

/-- Settles O51: insertion sort by type; the sorted list is its own sort. -/
theorem sortIsStableAndIdempotent : Obligations.SortIsStableAndIdempotent := by
  refine ⟨fun _ _ _ => rfl, fun s => ⟨sortByType s.cats, rfl, sortByType_perm _, sortByType_pairwise _,
    sortByType_filter_type _, ?_⟩⟩
  have hagain := sortByType_of_pairwise (sortByType_pairwise s.cats)
  exact congrArg (fun l => Host.Outcome.next (finish 0 0 .none { s with cats := l })) hagain

/-! ## RELEASE -/

/-- Settles O52: RELEASE is one update of the state, read field by field. -/
theorem releaseRestoresTheEmptyImage : Obligations.ReleaseRestoresTheEmptyImage :=
  ⟨fun _ _ _ => rfl, fun _ => ⟨_, rfl, rfl, rfl, rfl, rfl, rfl, rfl, rfl, rfl, rfl, rfl, rfl, rfl, rfl, rfl⟩⟩

/-! ## RD_CAT and RD_DIAG -/

theorem exec_rdCat_of_some {i : U32} {s : State} {c : Category} (h : s.cats[i.toNat]? = some c) :
    exec (.rdCat i) s =
      .next (finish (c.type.setWidth 32) (countWord c.sizeBytes) (.payload c.payload) s) := by
  simp only [exec, execRdCat, h]

theorem exec_rdCat_of_none {i : U32} {s : State} (h : s.cats[i.toNat]? = none) :
    exec (.rdCat i) s = .next (afterRefusal 0x36 s) := by
  simp only [exec, execRdCat, h, refuse_eq_afterRefusal, codeByte]

theorem exec_rdDiag_of_some {k : U32} {s : State} {d : ErrRec} (h : s.diags[k.toNat]? = some d) :
    exec (.rdDiag k) s = .next (finish (diagWord d) d.pos .none s) := by
  simp only [exec, execRdDiag, h]

theorem exec_rdDiag_of_none {k : U32} {s : State} (h : s.diags[k.toNat]? = none) :
    exec (.rdDiag k) s = .next (afterRefusal 0x36 s) := by
  simp only [exec, execRdDiag, h, refuse_eq_afterRefusal, codeByte]

/-- The two fields of the word do not overlap (60_exceptions.md R333). -/
theorem diagWord_toNat (d : ErrRec) : (diagWord d).toNat = d.code.toNat + 65536 * d.secType.toNat := by
  have hcode := d.code.isLt
  have htype := d.secType.isLt
  rw [diagWord, BitVec.toNat_or, BitVec.toNat_shiftLeft, BitVec.toNat_setWidth_of_le (by decide),
    BitVec.toNat_setWidth_of_le (by decide), Nat.mod_eq_of_lt (by omega), Nat.or_comm,
    ← Nat.shiftLeft_add_eq_or_of_lt (by omega), Nat.shiftLeft_eq]
  omega

/-- Settles O53: each reads the element its index names. -/
theorem readOutCommandsAnswerTheElement : Obligations.ReadOutCommandsAnswerTheElement := by
  refine ⟨fun _ _ _ => rfl, fun _ _ _ => rfl, fun s i => ⟨fun c hc => exec_rdCat_of_some hc, fun h => ?_,
    fun d hd => ⟨diagWord d, exec_rdDiag_of_some hd, diagWord_toNat d⟩, fun h => ?_⟩⟩
  · exact exec_rdCat_of_none (List.getElem?_eq_none h)
  · exact exec_rdDiag_of_none (List.getElem?_eq_none h)

end Sys2Proof.Machine
end

section
/-! SUPPORT. The string table: the node a string command names, and what STR_ADD, STR_BY_ID and STR_FIND answer on
it (42_registry.md R182 to R185). -/

namespace Sys2Proof.Machine

/-! ## The node a string command names -/

/-- The node at the index `i` is `c`, a string table holding `strs` (42_registry.md R182). -/
structure TableAt (i : U32) (c : Category) (strs : List Bytes) (s : State) : Prop where
  node : s.cats[i.toNat]? = some c
  type : c.type = 10
  payload : c.payload = .strings strs

theorem TableAt.stringNode {i : U32} {c : Category} {strs : List Bytes} {s : State} (h : TableAt i c strs s) :
    stringNode i s = .ok c := by
  simp only [Machine.stringNode, h.node]
  exact if_pos h.type

theorem TableAt.payloadStrings {i : U32} {c : Category} {strs : List Bytes} {s : State} (h : TableAt i c strs s) :
    payloadStrings c.payload = strs := by rw [h.payload]; rfl

theorem stringNode_of_le {i : U32} {s : State} (h : s.cats.length ≤ i.toNat) :
    stringNode i s = .error .indexOutOfRange := by
  simp only [stringNode, List.getElem?_eq_none h]

theorem stringNode_of_type_ne {i : U32} {s : State} {c : Category} (hc : s.cats[i.toNat]? = some c)
    (h : c.type ≠ 10) : stringNode i s = .error .wrongCategoryType := by
  simp only [stringNode, hc]
  exact if_neg h

section

variable {i : U32} {s : State} {e : Code} (h : stringNode i s = .error e)

include h

theorem exec_strAdd_of_error (a len : U32) : exec (.strAdd i a len) s = .next (afterRefusal (codeByte e) s) := by
  simp only [exec, execStrAdd, h, refuse_eq_afterRefusal]

theorem exec_strById_of_error (k : U32) : exec (.strById i k) s = .next (afterRefusal (codeByte e) s) := by
  simp only [exec, execStrById, h, refuse_eq_afterRefusal]

theorem exec_strFind_of_error (a len : U32) : exec (.strFind i a len) s = .next (afterRefusal (codeByte e) s) := by
  simp only [exec, execStrFind, h, refuse_eq_afterRefusal]

end

/-! ## STR_BY_ID -/

section

variable {i : U32} {c : Category} {strs : List Bytes} {s : State} (h : TableAt i c strs s)

include h

theorem TableAt.exec_strById (k : U32) :
    exec (.strById i k) s = .next ((stringById k.toNat strs).elim (finish 0 0 .none s)
      (fun x => finish 1 (countWord x.length) (.bytes x) s)) := by
  simp only [exec, execStrById, h.stringNode, h.payloadStrings]
  cases stringById k.toNat strs <;> rfl

/-- The ID of the string at the place `j` (42_registry.md R184). -/
theorem TableAt.exec_strById_succ {k : U32} {j : Nat} {x : Bytes} (hk : k.toNat = j + 1) (hx : strs[j]? = some x) :
    exec (.strById i k) s = .next (finish 1 (countWord x.length) (.bytes x) s) := by
  rw [h.exec_strById, hk, stringById, hx]
  rfl

end

theorem stringById_eq_none {k : Nat} {strs : List Bytes} (h : k = 0 ∨ strs.length < k) : stringById k strs = none := by
  cases k with
  | zero => rfl
  | succ j => exact List.getElem?_eq_none (by omega)

/-- Settles O55: the ID `k` names the string at the place `k - 1`. -/
theorem strByIdIsOneBased : Obligations.StrByIdIsOneBased := by
  refine ⟨fun _ _ _ => rfl, fun i k s => ⟨fun h => exec_strById_of_error (stringNode_of_le h) k, fun c hc =>
    ⟨fun ht => exec_strById_of_error (stringNode_of_type_ne hc ht) k, fun strs ht hp => ⟨fun hk => ?_, fun hk => ?_⟩⟩⟩⟩
  · exact TableAt.exec_strById_succ ⟨hc, ht, hp⟩ (by omega) (List.getElem?_eq_getElem _)
  · rw [TableAt.exec_strById ⟨hc, ht, hp⟩, stringById_eq_none hk]
    rfl

/-! ## STR_ADD -/

section

variable {i a len : U32} {c : Category} {strs : List Bytes} {s : State} (h : TableAt i c strs s)

include h

theorem TableAt.exec_strAdd_of_not_range
    (hout : s.config.inCap.toNat < a.toNat + len.toNat ∨ 255 < len.toNat ∨ strs.length = 255) :
    exec (.strAdd i a len) s = .next (afterRefusal 0x31 s) := by
  simp only [exec, execStrAdd, h.stringNode, h.payloadStrings]
  refine if_neg fun htest => ?_
  simp only [Bool.and_eq_true, inRange_iff, decide_eq_true_eq, Bool.not_eq_true', beq_eq_false_iff_ne] at htest
  omega

theorem TableAt.exec_strAdd (hin : a.toNat + len.toNat ≤ s.config.inCap.toNat) (hlen : len.toNat ≤ 255)
    (hroom : strs.length < 255) :
    exec (.strAdd i a len) s = .next (finish (countWord (strs.length + 1)) 0 .none
      { s with cats := s.cats.set i.toNat { c with payload := .strings (strs ++ [inOperand s a len]) } }) := by
  simp only [exec, execStrAdd, h.stringNode, addString, h.payloadStrings]
  refine if_pos ?_
  simp only [Bool.and_eq_true, inRange_iff, decide_eq_true_eq, Bool.not_eq_true', beq_eq_false_iff_ne]
  exact ⟨⟨hin, hlen⟩, hroom.ne⟩

/-- The index names the rewritten node, a string table still. -/
theorem TableAt.set_strings (v0 v1 : U32) (r : Result) (strs' : List Bytes) :
    TableAt i { c with payload := .strings strs' } strs'
      (finish v0 v1 r { s with cats := s.cats.set i.toNat { c with payload := .strings strs' } }) where
  node := List.getElem?_set_self (List.getElem?_eq_some_iff.mp h.node).1
  type := h.type
  payload := rfl

end

/-- A place in a table that STR_ADD lets grow has an ID of 32 bits (42_registry.md R183). -/
theorem idWord_toNat {n k : Nat} (hn : n < 255) (hk : k ≤ n) : (BitVec.ofNat 32 (k + 1)).toNat = k + 1 := by
  rw [BitVec.toNat_ofNat]
  omega

/-- Settles O54: the table with the string at its end is what the new ID and the earlier ones are looked up in. -/
theorem strAddGivesTheNextId : Obligations.StrAddGivesTheNextId := by
  refine ⟨fun _ _ _ => rfl, fun i a len s x hx => ⟨fun h => exec_strAdd_of_error (stringNode_of_le h) a len,
    fun c hc => ⟨fun ht => exec_strAdd_of_error (stringNode_of_type_ne hc ht) a len, fun strs ht hp => ?_⟩⟩⟩
  rw [← inOperand_eq_map] at hx
  subst hx
  have htable : TableAt i c strs s := ⟨hc, ht, hp⟩
  refine ⟨htable.exec_strAdd_of_not_range, fun hin hlen hroom => ⟨_, rfl, htable.exec_strAdd hin hlen hroom, ?_,
    fun k y hy => ?_⟩⟩
  · have hlength : countWord (inOperand s a len).length = len := by simp [countWord, inOperand]
    have hnew := htable.set_strings (countWord (strs.length + 1)) 0 .none (strs ++ [inOperand s a len])
    have hlast := hnew.exec_strById_succ (idWord_toNat hroom le_rfl) List.getElem?_concat_length
    rwa [hlength] at hlast
  · obtain ⟨hk, -⟩ := List.getElem?_eq_some_iff.mp hy
    exact (htable.set_strings _ _ _ _).exec_strById_succ (idWord_toNat hroom hk.le)
      ((List.getElem?_append_left hk).trans hy)

/-! ## STR_FIND -/

theorem idOfString_eq_findIdx? (x : Bytes) (strs : List Bytes) :
    idOfString x strs = (strs.findIdx? (· == x)).elim 0 (· + 1) := by
  induction strs with
  | nil => rfl
  | cons y ys ih =>
    rw [idOfString, List.findIdx?_cons, ih]
    by_cases hy : y = x
    · simp [hy]
    · cases hys : ys.findIdx? (· == x) <;> simp [hy]

section

variable {i a len : U32} {c : Category} {strs : List Bytes} {s : State} (h : TableAt i c strs s)

include h

theorem TableAt.exec_strFind_of_not_range (hout : s.config.inCap.toNat < a.toNat + len.toNat) :
    exec (.strFind i a len) s = .next (afterRefusal 0x31 s) := by
  simp only [exec, execStrFind, h.stringNode]
  exact if_neg (mt inRange_iff.mp (by omega))

theorem TableAt.exec_strFind (hin : a.toNat + len.toNat ≤ s.config.inCap.toNat) :
    exec (.strFind i a len) s = .next (finish (countWord (idOfString (inOperand s a len) strs)) 0 .none s) := by
  simp only [exec, execStrFind, h.stringNode, h.payloadStrings]
  exact if_pos (inRange_iff.mpr hin)

end

/-- Settles O56: the search is for the least place, and the ID is one more. -/
theorem strFindAnswersTheLowestId : Obligations.StrFindAnswersTheLowestId := by
  refine ⟨fun _ _ _ => rfl, fun i a len s x hx => ⟨fun h => exec_strFind_of_error (stringNode_of_le h) a len,
    fun c hc => ⟨fun ht => exec_strFind_of_error (stringNode_of_type_ne hc ht) a len, fun strs ht hp => ?_⟩⟩⟩
  rw [← inOperand_eq_map] at hx
  have htable : TableAt i c strs s := ⟨hc, ht, hp⟩
  refine ⟨htable.exec_strFind_of_not_range, fun hin => ?_⟩
  rw [htable.exec_strFind hin, ← hx, idOfString_eq_findIdx?]
  refine ⟨fun j hj hleast => ?_, fun hmem => ?_⟩
  · have hfirst : strs.findIdx? (· == x) = some j :=
      findIdx?_eq_some_of_least hj (beq_self_eq_true x) fun k y hk hy =>
        beq_eq_false_iff_ne.mpr fun heq => hleast k hk (heq ▸ hy)
    rw [hfirst]
    rfl
  · have hnone : strs.findIdx? (· == x) = none :=
      List.findIdx?_eq_none_iff.mpr fun y hy => beq_eq_false_iff_ne.mpr fun heq => hmem (heq ▸ hy)
    rw [hnone]
    rfl

end Sys2Proof.Machine
end

section
/-! SUPPORT. The fields of a codec's layout: what a read behind a header reads, the numbers that bytes and nibbles
stand for, and each flag of a byte that was put together from its bits (20_memory.md R64, R65; 30_encoding.md R92). -/

namespace Sys2Proof.Machine

theorem rd8_drop (b : Bytes) (k o : Nat) : rd8 (b.drop k) o = rd8 b (k + o) := by
  simp [rd8, List.getD_eq_getElem?_getD]

theorem append_toNat {m n : Nat} (x : BitVec m) (y : BitVec n) : (x ++ y).toNat = 2 ^ n * x.toNat + y.toNat := by
  rw [BitVec.toNat_append, ← Nat.shiftLeft_add_eq_or_of_lt y.isLt, Nat.shiftLeft_eq, Nat.mul_comm]

theorem u16of_toNat (b0 b1 : Byte) : (u16of b0 b1).toNat = b0.toNat + 256 * b1.toNat := by
  rw [u16of, append_toNat]
  omega

theorem u32of_toNat (b0 b1 b2 b3 : Byte) :
    (u32of b0 b1 b2 b3).toNat = b0.toNat + 256 * b1.toNat + 65536 * b2.toNat + 16777216 * b3.toNat := by
  rw [u32of, append_toNat, append_toNat, append_toNat]
  omega

theorem lowNibble_toNat (b : Byte) : (lowNibble b).toNat = b.toNat % 16 := by
  simp [lowNibble, BitVec.extractLsb'_toNat]

theorem highNibble_toNat (b : Byte) : (highNibble b).toNat = b.toNat / 16 := by
  have h := b.isLt
  simp only [highNibble, BitVec.extractLsb'_toNat, Nat.shiftRight_eq_div_pow]
  omega

/-- `rdi16` by the bytes it reads: two's complement of the unsigned number (20_memory.md R65). -/
theorem rdi16_eq (b : Bytes) (o : Nat) : rdi16 b o =
    if (rd8 b o).toNat + 256 * (rd8 b (o + 1)).toNat < 0x8000
    then ((rd8 b o).toNat + 256 * (rd8 b (o + 1)).toNat : Int)
    else ((rd8 b o).toNat + 256 * (rd8 b (o + 1)).toNat : Int) - 0x10000 := by
  rw [rdi16, BitVec.toInt_eq_toNat_cond, rd16, u16of_toNat]
  split <;> split <;> omega

@[simp] theorem flag_or (x y : Byte) (k : Nat) : flag (x ||| y) k = (flag x k || flag y k) := BitVec.getLsbD_or

@[simp] theorem flag_bitAt_self (f : Bool) {k : Nat} (h : k < 8) : flag (bitAt f k) k = f := by
  cases f <;> simp [flag, bitAt, h]

@[simp] theorem flag_bitAt_of_ne (f : Bool) {j k : Nat} (h : j ≠ k) : flag (bitAt f j) k = false := by
  cases f with
  | false => simp [flag, bitAt]
  | true =>
    simp only [flag, bitAt, reduceIte, BitVec.getLsbD_shiftLeft, BitVec.getLsbD_one]
    grind

@[simp] theorem flag_latchByte_zero (pos neg : Bool) : flag (latchByte pos neg) 0 = pos := by simp [latchByte]

@[simp] theorem flag_latchByte_one (pos neg : Bool) : flag (latchByte pos neg) 1 = neg := by simp [latchByte]

end Sys2Proof.Machine
end

section
/-! SUPPORT. The Strings and the FMMU codec: what each reads, item by item (43_category_codecs.md R200, R201, R220,
R221). -/

namespace Sys2Proof.Machine

/-! ## STRINGS -/

theorem encodeStringList_eq_flatMap (strs : List Bytes) :
    encodeStringList strs = strs.flatMap (fun x => BitVec.ofNat 8 x.length :: x) := by
  induction strs with
  | nil => rfl
  | cons x xs ih => rw [encodeStringList, ih, List.flatMap_cons, List.cons_append]

/-- A length that fits a byte is what its length byte says. -/
theorem toNat_ofNat_byte {n : Nat} (h : n ≤ 255) : (BitVec.ofNat 8 n).toNat = n := by
  rw [BitVec.toNat_ofNat]
  omega

/-- The strings are read back whatever follows them. -/
theorem decodeStringList_encode_append {strs : List Bytes} (h : ∀ x ∈ strs, x.length ≤ 255) (surplus : Bytes) :
    decodeStringList strs.length (encodeStringList strs ++ surplus) = some strs := by
  induction strs with
  | nil => rfl
  | cons x xs ih =>
    obtain ⟨hx, hxs⟩ := List.forall_mem_cons.mp h
    have hroom : x.length ≤ (x ++ (encodeStringList xs ++ surplus)).length := by
      rw [List.length_append]
      omega
    rw [encodeStringList, List.cons_append, List.append_assoc, List.length_cons, decodeStringList, toNat_ofNat_byte hx,
      if_pos hroom, List.drop_left, List.take_left, ih hxs]

/-- What is read stands at the head of the bytes as the encoder writes it. -/
theorem eq_encodeStringList_append {n : Nat} {b : Bytes} {strs : List Bytes} (h : decodeStringList n b = some strs) :
    ∃ surplus, b = encodeStringList strs ++ surplus := by
  induction n generalizing b strs with
  | zero => cases h; exact ⟨b, rfl⟩
  | succ n ih =>
    cases b with
    | nil => cases h
    | cons l rest =>
      simp only [decodeStringList] at h
      split at h
      next hroom =>
        split at h <;> cases h
        next tail htail =>
          obtain ⟨surplus, hrest⟩ := ih htail
          have hbyte : BitVec.ofNat 8 (rest.take l.toNat).length = l := by
            rw [List.length_take_of_le hroom, BitVec.ofNat_toNat, BitVec.setWidth_eq]
          refine ⟨surplus, ?_⟩
          rw [encodeStringList, hbyte, List.cons_append, List.append_assoc, ← hrest, List.take_append_drop]
      · cases h

/-- The codec behind its count byte. -/
theorem decodeStrings_encode_append {strs : List Bytes} (hcount : strs.length ≤ 255) (h : ∀ x ∈ strs, x.length ≤ 255)
    (surplus : Bytes) :
    decodeStrings (BitVec.ofNat 8 strs.length :: (encodeStringList strs ++ surplus)) = some (.strings strs) := by
  rw [decodeStrings, toNat_ofNat_byte hcount, decodeStringList_encode_append h]

/-- Settles O22: what is read is what the encoder lays down, and the surplus. -/
theorem stringsDecodeReadsCountedStrings : Obligations.StringsDecodeReadsCountedStrings := by
  intro p v
  simp only [← encodeStringList_eq_flatMap]
  constructor
  · intro h
    cases p with
    | nil => cases h
    | cons n rest =>
      simp only [decodeStrings] at h
      split at h <;> cases h
      next strs hstrs =>
        obtain ⟨hcount, hlength⟩ := decodeStringList_bounded hstrs
        obtain ⟨surplus, hrest⟩ := eq_encodeStringList_append hstrs
        have hn := n.isLt
        have hbyte : BitVec.ofNat 8 strs.length = n := by rw [hcount, BitVec.ofNat_toNat, BitVec.setWidth_eq]
        exact ⟨strs, surplus, rfl, by omega, hlength, by rw [hbyte, hrest]⟩
  · rintro ⟨strs, surplus, rfl, hcount, hlength, rfl⟩
    exact decodeStrings_encode_append hcount hlength surplus

/-! ## FMMU -/

/-- The usage a code stands for, if it is kept (10_state.md R31). -/
def usageOf (c : Byte) : Option FmmuUsage :=
  if c = 1#8 then some .outputs else if c = 2#8 then some .inputs else if c = 3#8 then some .smStatus else none

/-- The codes of 30_encoding.md R98 that are not reserved. -/
def usageCodes : Bytes := [0x00#8, 0x01#8, 0x02#8, 0x03#8, 0xFF#8]

theorem usageOf_usageByte (u : FmmuUsage) : usageOf (usageByte u) = some u := by cases u <;> rfl

theorem usageByte_mem_usageCodes (u : FmmuUsage) : usageByte u ∈ usageCodes := by cases u <;> decide

/-- One code: it adds its usage, or it is dropped. -/
theorem decodeUsages_cons_of_mem {c : Byte} (h : c ∈ usageCodes) (rest : Bytes) :
    decodeUsages (c :: rest) = (decodeUsages rest).map ((usageOf c).toList ++ ·) := by
  simp only [usageCodes, List.mem_cons, List.not_mem_nil, or_false] at h
  rw [decodeUsages]
  obtain rfl | rfl | rfl | rfl | rfl := h <;> cases decodeUsages rest <;> rfl

theorem decodeUsages_cons_of_not_mem {c : Byte} (h : c ∉ usageCodes) (rest : Bytes) :
    decodeUsages (c :: rest) = none := by
  simp only [usageCodes, List.mem_cons, List.not_mem_nil, or_false, not_or] at h
  obtain ⟨h0, h1, h2, h3, hff⟩ := h
  rw [decodeUsages]
  cases decodeUsages rest with
  | none => rfl
  | some us => exact (if_neg (not_or.mpr ⟨h0, hff⟩)).trans ((if_neg h1).trans ((if_neg h2).trans (if_neg h3)))

theorem decodeUsages_of_assigned {p : Bytes} (h : ∀ c ∈ p, c ∈ usageCodes) :
    decodeUsages p = some (p.filterMap usageOf) := by
  induction p with
  | nil => rfl
  | cons c rest ih =>
    obtain ⟨hc, hrest⟩ := List.forall_mem_cons.mp h
    rw [decodeUsages_cons_of_mem hc, ih hrest, Option.map_some, List.filterMap_cons]
    cases usageOf c <;> rfl

theorem decodeUsages_of_reserved {p : Bytes} (h : ∃ c ∈ p, c ∉ usageCodes) : decodeUsages p = none := by
  induction p with
  | nil => simp at h
  | cons c rest ih =>
    by_cases hc : c ∈ usageCodes
    · have hrest : ∃ c ∈ rest, c ∉ usageCodes := by simpa [hc] using h
      rw [decodeUsages_cons_of_mem hc, ih hrest, Option.map_none]
    · exact decodeUsages_cons_of_not_mem hc rest

theorem decodeFmmu_of_assigned {p : Bytes} (h : ∀ c ∈ p, c ∈ usageCodes) :
    decodeFmmu p = some (.fmmu (p.filterMap usageOf)) := by
  rw [decodeFmmu, decodeUsages_of_assigned h]

/-- Settles O23, by the codes of the payload. -/
theorem fmmuDecodeDropsUnused : Obligations.FmmuDecodeDropsUnused :=
  fun _ => ⟨decodeFmmu_of_assigned, fun h => by rw [decodeFmmu, decodeUsages_of_reserved h]⟩

end Sys2Proof.Machine
end

section
/-! SUPPORT. The codecs made of records of 8 bytes, SyncManager and PDO: each record by the offsets of its fields
(43_category_codecs.md R225, R226, R230, R231; 30_encoding.md R89, R90). -/

namespace Sys2Proof.Machine

/-! ## SYNCM -/

theorem syncTypeOf_syncTypeByte (t : SyncType) : syncTypeOf (syncTypeByte t) = some t := by cases t <;> rfl

theorem syncTypeByte_le (ty : SyncType) : (syncTypeByte ty).toNat ≤ 4 := by cases ty <;> decide

/-- The type read is the one whose wire code stands there (10_state.md R32). -/
theorem eq_syncTypeByte_of_syncTypeOf {t : Byte} {ty : SyncType} (h : syncTypeOf t = some ty) : t = syncTypeByte ty := by
  unfold syncTypeOf at h
  split at h <;> cases h <;> exact BitVec.eq_of_toNat_eq ‹_›

theorem exists_syncTypeOf_of_le {t : Byte} (h : t.toNat ≤ 4) : ∃ ty, syncTypeOf t = some ty := by
  have hcode : t.toNat = 0 ∨ t.toNat = 1 ∨ t.toNat = 2 ∨ t.toNat = 3 ∨ t.toNat = 4 := by omega
  unfold syncTypeOf
  obtain h | h | h | h | h := hcode <;> rw [h] <;> exact ⟨_, rfl⟩

/-- The record at offset `o` of `p`, its type taken to be `ty` (30_encoding.md R89). -/
def syncEntryAt (p : Bytes) (o : Nat) (ty : SyncType) : SyncEntry :=
  { physAddr := rd16 p o, length := rd16 p (o + 2), control := rd8 p (o + 4), status := rd8 p (o + 5),
    enable := rd8 p (o + 6), type := ty }

/-- `e` is the record at offset `o` of `p`, type and all. -/
def SyncRecordAt (p : Bytes) (o : Nat) (e : SyncEntry) : Prop :=
  ∃ ty, e = syncEntryAt p o ty ∧ rd8 p (o + 7) = syncTypeByte ty

theorem SyncRecordAt.of_drop {p : Bytes} {k o : Nat} {e : SyncEntry} (h : SyncRecordAt (p.drop k) o e) :
    SyncRecordAt p (k + o) e := by
  obtain ⟨ty, rfl, hty⟩ := h
  refine ⟨ty, ?_, by rw [← hty, rd8_drop, Nat.add_assoc]⟩
  simp only [syncEntryAt, rd8_drop, rd16_drop, Nat.add_assoc]

/-- One record is read, and the rest 8 bytes on. -/
theorem decodeSyncEntries_of_le {p : Bytes} (h : 8 ≤ p.length) : decodeSyncEntries p =
    (syncTypeOf (rd8 p 7)).bind (fun ty => (decodeSyncEntries (p.drop 8)).map (syncEntryAt p 0 ty :: ·)) := by
  match p, h with
  | a0 :: a1 :: l0 :: l1 :: c :: st :: en :: t :: rest, _ =>
    show decodeSyncEntries _ = (syncTypeOf t).bind (fun ty => (decodeSyncEntries rest).map _)
    rw [decodeSyncEntries]
    cases syncTypeOf t <;> cases decodeSyncEntries rest <;> rfl

/-- Whole records of assigned types decode. -/
theorem exists_decodeSyncEntries {n : Nat} {p : Bytes} (hlen : p.length = 8 * n)
    (h : ∀ j < n, (rd8 p (8 * j + 7)).toNat ≤ 4) : ∃ es, decodeSyncEntries p = some es := by
  induction n generalizing p with
  | zero => obtain rfl := List.length_eq_zero_iff.mp hlen; exact ⟨[], rfl⟩
  | succ n ih =>
    obtain ⟨ty, hty⟩ := exists_syncTypeOf_of_le (h 0 n.succ_pos)
    have hrest : ∀ j < n, (rd8 (p.drop 8) (8 * j + 7)).toNat ≤ 4 := fun j hj => by
      rw [rd8_drop, show 8 + (8 * j + 7) = 8 * (j + 1) + 7 by omega]
      exact h (j + 1) (by omega)
    obtain ⟨es, hes⟩ := ih (by rw [List.length_drop]; omega) hrest
    refine ⟨syncEntryAt p 0 ty :: es, ?_⟩
    rw [decodeSyncEntries_of_le (by omega), hes]
    simp only [Nat.mul_zero, Nat.zero_add] at hty
    rw [hty]
    rfl

/-- What is decoded are whole records of assigned types, one at every multiple of 8. -/
theorem syncRecords_of_decode {p : Bytes} {es : List SyncEntry} (h : decodeSyncEntries p = some es) :
    p.length = 8 * es.length ∧ ∀ j (hj : j < es.length), SyncRecordAt p (8 * j) es[j] := by
  fun_induction decodeSyncEntries p generalizing es with
  | case1 => cases h; simp
  | case2 a0 a1 l0 l1 c st en t rest ty tail htail hty ih =>
    cases h
    obtain ⟨hlen, hrecord⟩ := ih htail
    refine ⟨by simp only [List.length_cons]; omega, fun j hj => ?_⟩
    cases j with
    | zero => exact ⟨_, rfl, eq_syncTypeByte_of_syncTypeOf hty⟩
    | succ j =>
      rw [Nat.mul_succ, Nat.add_comm]
      exact SyncRecordAt.of_drop (hrecord j (Nat.lt_of_succ_lt_succ hj))
  | case3 | case4 => cases h

theorem decodeSyncM_eq_none_of_forall_ne {p : Bytes} (h : ∀ es, decodeSyncEntries p ≠ some es) : decodeSyncM p = none := by
  rw [decodeSyncM, Option.eq_none_iff_forall_ne_some.mpr h]

/-- Settles O24: whole records of assigned types decode, and nothing else does. -/
theorem syncMDecodeReadsEveryRecord : Obligations.SyncMDecodeReadsEveryRecord := by
  refine fun p => ⟨fun hlen htypes => ?_, fun hlen => ?_, fun j hj htype => ?_⟩
  · obtain ⟨es, hes⟩ := exists_decodeSyncEntries (n := p.length / 8) (by omega) htypes
    obtain ⟨hcount, hrecord⟩ := syncRecords_of_decode hes
    refine ⟨es, by rw [decodeSyncM, hes], by omega, fun j hj => ?_⟩
    obtain ⟨ty, he, hty⟩ := hrecord j hj
    rw [he, hty]
    exact ⟨rfl, rfl, rfl, rfl, rfl, by cases ty <;> rfl⟩
  · refine decodeSyncM_eq_none_of_forall_ne fun es hes => ?_
    obtain ⟨hcount, -⟩ := syncRecords_of_decode hes
    omega
  · refine decodeSyncM_eq_none_of_forall_ne fun es hes => ?_
    obtain ⟨hcount, hrecord⟩ := syncRecords_of_decode hes
    obtain ⟨ty, -, hty⟩ := hrecord j (by omega)
    have hassigned := syncTypeByte_le ty
    rw [← hty] at hassigned
    omega

/-! ## TXPDO and RXPDO -/

/-- The entry at offset `o` of `p` (30_encoding.md R90). -/
def pdoEntryAt (p : Bytes) (o : Nat) : PdoEntry :=
  { index := rd16 p o, subindex := rd8 p (o + 2), strIdx := rd8 p (o + 3), dataType := rd8 p (o + 4),
    bitLen := rd8 p (o + 5), flags := rd16 p (o + 6) }

theorem pdoEntryAt_drop (p : Bytes) (k o : Nat) : pdoEntryAt (p.drop k) o = pdoEntryAt p (k + o) := by
  simp only [pdoEntryAt, rd8_drop, rd16_drop, Nat.add_assoc]

/-- One entry is read, and the others 8 bytes on. -/
theorem decodePdoEntries_succ_of_le {n : Nat} {p : Bytes} (h : 8 ≤ p.length) :
    decodePdoEntries (n + 1) p = (decodePdoEntries n (p.drop 8)).map (pdoEntryAt p 0 :: ·) := by
  match p, h with
  | i0 :: i1 :: sub :: str :: dt :: bl :: f0 :: f1 :: rest, _ =>
    show decodePdoEntries _ _ = (decodePdoEntries n rest).map _
    rw [decodePdoEntries]
    cases decodePdoEntries n rest <;> rfl

theorem decodePdoEntries_succ_of_lt {n : Nat} {p : Bytes} (h : p.length < 8) : decodePdoEntries (n + 1) p = none := by
  unfold decodePdoEntries
  split
  next heq => cases heq
  next => simp only [List.length_cons] at h; omega
  next => rfl

/-- The count alone decides how many entries there are; what follows them is ignored (43_category_codecs.md R247). -/
theorem decodePdoEntries_of_le {n : Nat} {p : Bytes} (h : 8 * n ≤ p.length) :
    decodePdoEntries n p = some ((List.range n).map (fun k => pdoEntryAt p (8 * k))) := by
  induction n generalizing p with
  | zero => rfl
  | succ n ih =>
    rw [decodePdoEntries_succ_of_le (by omega), ih (by rw [List.length_drop]; omega), List.range_succ_eq_map,
      List.map_cons, List.map_map, Option.map_some]
    simp only [pdoEntryAt_drop, Function.comp_def, Nat.mul_succ, Nat.add_comm]

theorem decodePdoEntries_of_lt {n : Nat} {p : Bytes} (h : p.length < 8 * n) : decodePdoEntries n p = none := by
  induction n generalizing p with
  | zero => omega
  | succ n ih =>
    by_cases hp : 8 ≤ p.length
    · rw [decodePdoEntries_succ_of_le hp, ih (by rw [List.length_drop]; omega), Option.map_none]
    · exact decodePdoEntries_succ_of_lt (by omega)

/-- The payload whose header fields stand at the head of `p` (30_encoding.md R90). -/
def pdoAt (dir : PdoDir) (p : Bytes) (es : List PdoEntry) : Pdo :=
  { dir := dir, index := rd16 p 0, sm := rd8 p 3, dcSync := rd8 p 4, nameIdx := rd8 p 5, flags := rd16 p 6,
    entries := es }

/-- Eight header bytes, then the entries. -/
theorem decodePdo_of_le {dir : PdoDir} {p : Bytes} (h : 8 ≤ p.length) : decodePdo dir p =
    (decodePdoEntries (rd8 p 2).toNat (p.drop 8)).map (fun es => .pdo (pdoAt dir p es)) := by
  match p, h with
  | i0 :: i1 :: n :: sm :: dc :: nm :: f0 :: f1 :: rest, _ =>
    show decodePdo dir _ = (decodePdoEntries n.toNat rest).map _
    rw [decodePdo]
    cases decodePdoEntries n.toNat rest <;> rfl

theorem decodePdo_of_lt {dir : PdoDir} {p : Bytes} (h : p.length < 8) : decodePdo dir p = none := by
  unfold decodePdo
  split
  next => simp only [List.length_cons] at h; omega
  next => rfl

/-- Settles O25: the entries are those the count byte counts. -/
theorem pdoDecodeReadsTheEntryCount : Obligations.PdoDecodeReadsTheEntryCount := by
  refine fun dir p => ⟨fun hheader hentries => ?_, fun hshort => ?_⟩
  · have hdecode : decodePdoEntries (rd8 p 2).toNat (p.drop 8) = _ :=
      decodePdoEntries_of_le (by rw [List.length_drop]; omega)
    rw [decodePdo_of_le hheader, hdecode]
    refine ⟨_, rfl, rfl, rfl, rfl, rfl, rfl, rfl, by simp [pdoAt], fun k hk => ?_⟩
    simp only [pdoAt, List.getElem_map, List.getElem_range, pdoEntryAt_drop]
    exact ⟨rfl, rfl, rfl, rfl, rfl, rfl⟩
  · by_cases hheader : 8 ≤ p.length
    · rw [decodePdo_of_le hheader, decodePdoEntries_of_lt (by rw [List.length_drop]; omega), Option.map_none]
    · exact decodePdo_of_lt (by omega)

end Sys2Proof.Machine
end

section
/-! SUPPORT. The codecs of fixed layout, General and DistributedClock (43_category_codecs.md R210, R240). -/

namespace Sys2Proof.Machine

/-- Settles O26, field by field. -/
theorem generalDecodeReadsTheLayout : Obligations.GeneralDecodeReadsTheLayout := by
  refine fun p => ⟨fun h => ⟨_, if_neg (Nat.not_lt.mpr h), rfl, rfl, rfl, rfl, rfl, rfl, rfl, rfl, rfl, rfl, rfl, rfl,
    rfl, rfl, rfl, rfl, rfl, ?_, lowNibble_toNat _, highNibble_toNat _, lowNibble_toNat _, highNibble_toNat _,
    u16of_toNat _ _⟩, fun h => if_pos h⟩
  have hcurrent : (BitVec.ofInt 16 (rdi16 p 12)).toInt = rdi16 p 12 := by rw [rdi16, BitVec.ofInt_toInt]
  exact hcurrent.trans (rdi16_eq p 12)

/-- Settles O27, field by field. -/
theorem dClockDecodeReadsTheLayout : Obligations.DClockDecodeReadsTheLayout :=
  fun _ => ⟨fun h => ⟨_, if_neg (Nat.not_lt.mpr h), rfl, rfl, rfl, u16of_toNat _ _, rfl, rfl, rfl, rfl, rfl, rfl, rfl,
    rfl, rfl, rfl, rfl, rfl, rfl, u32of_toNat _ _ _ _, rfl, rfl, rfl⟩, fun h => if_pos h⟩

end Sys2Proof.Machine
end

section
/-! SUPPORT. Each codec's decoder on what its encoder writes (43_category_codecs.md R245, with R201, R211, R221, R226,
R231, R241). -/

namespace Sys2Proof.Machine

/-- Padding to an even length adds a byte 0x00 at most (43_category_codecs.md R201, R221). -/
theorem padEven_cases (b : Bytes) : padEven b = b ∨ padEven b = b ++ [0] := by
  unfold padEven
  split
  · exact .inr rfl
  · exact .inl rfl

theorem decodeStrings_encodeStrings {strs : List Bytes} (hcount : strs.length ≤ 255) (h : ∀ x ∈ strs, x.length ≤ 255) :
    decodeStrings (encodeStrings strs) = some (.strings strs) := by
  unfold encodeStrings
  obtain hpad | hpad := padEven_cases (BitVec.ofNat 8 strs.length :: encodeStringList strs)
  · rw [hpad]
    simpa using decodeStrings_encode_append hcount h []
  · rw [hpad]
    exact decodeStrings_encode_append hcount h [0]

theorem filterMap_usageOf_map_usageByte (us : List FmmuUsage) : (us.map usageByte).filterMap usageOf = us := by
  have hcode : usageOf ∘ usageByte = some := funext usageOf_usageByte
  rw [List.filterMap_map, hcode, List.filterMap_some]

theorem decodeFmmu_encodeFmmu (us : List FmmuUsage) : decodeFmmu (encodeFmmu us) = some (.fmmu us) := by
  have hcodes : ∀ c ∈ us.map usageByte, c ∈ usageCodes := by
    simpa using fun u _ => usageByte_mem_usageCodes u
  have husages := filterMap_usageOf_map_usageByte us
  unfold encodeFmmu
  obtain hpad | hpad := padEven_cases (us.map usageByte)
  · rw [hpad, decodeFmmu_of_assigned hcodes, husages]
  · have hpadded : ∀ c ∈ us.map usageByte ++ [0], c ∈ usageCodes :=
      List.forall_mem_append.mpr ⟨hcodes, List.forall_mem_singleton.mpr (by decide)⟩
    rw [hpad, decodeFmmu_of_assigned hpadded, List.filterMap_append, husages]
    exact congrArg (fun us => some (Payload.fmmu us)) (List.append_nil us)

theorem decodeSyncEntries_encodeSyncM (es : List SyncEntry) :
    decodeSyncEntries (encodeSyncM es) = some (es.map (fun e => { e with status := 0 })) := by
  induction es with
  | nil => rfl
  | cons e es ih =>
    simp [encodeSyncM, encodeSyncEntry, le16, decodeSyncEntries, syncTypeOf_syncTypeByte, ih]

theorem decodeSyncM_encodeSyncM (es : List SyncEntry) :
    decodeSyncM (encodeSyncM es) = some (.syncM (es.map (fun e => { e with status := 0 }))) := by
  rw [decodeSyncM, decodeSyncEntries_encodeSyncM]

theorem decodePdoEntries_encodePdoEntries (es : List PdoEntry) :
    decodePdoEntries es.length (encodePdoEntries es) = some es := by
  induction es with
  | nil => rfl
  | cons e es ih => simp [encodePdoEntries, encodePdoEntry, le16, decodePdoEntries, ih]

theorem decodePdo_encodePdo {d : Pdo} (h : d.entries.length ≤ 255) : decodePdo d.dir (encodePdo d) = some (.pdo d) := by
  simp [encodePdo, le16, decodePdo, decodePdoEntries_encodePdoEntries, Nat.mod_eq_of_lt (Nat.lt_succ_of_le h)]

theorem decodeGeneral_encodeGeneral (g : General) : decodeGeneral (encodeGeneral g) = some (.general g) := by
  have hlen : ¬ (encodeGeneral g).length < 32 := Nat.lt_irrefl 32
  have hindices : rd8 (encodeGeneral g) 0 = g.groupIdx ∧ rd8 (encodeGeneral g) 1 = g.imageIdx ∧
      rd8 (encodeGeneral g) 2 = g.orderIdx ∧ rd8 (encodeGeneral g) 3 = g.nameIdx := ⟨rfl, rfl, rfl, rfl⟩
  have hflags : rd8 (encodeGeneral g) 5 = coeByte g ∧ rd8 (encodeGeneral g) 6 = bitAt g.foeEnabled 0 ∧
      rd8 (encodeGeneral g) 7 = bitAt g.eoeEnabled 0 ∧ rd8 (encodeGeneral g) 11 = generalStatusByte g :=
    ⟨rfl, rfl, rfl, rfl⟩
  have hports : rd8 (encodeGeneral g) 16 = nibbles g.port0 g.port1 ∧
      rd8 (encodeGeneral g) 17 = nibbles g.port2 g.port3 := ⟨rfl, rfl⟩
  have hcurrent : rd16 (encodeGeneral g) 12 = BitVec.ofInt 16 g.currentEbus.toInt := u16of_extract _
  have hphys : rd16 (encodeGeneral g) 18 = g.physAddr := u16of_extract _
  rw [decodeGeneral, if_neg hlen]
  simp [hindices, hflags, hports, hcurrent, hphys, rdi16, coeByte, generalStatusByte]

theorem decodeDClock_encodeDClock (d : DClock) : decodeDClock (encodeDClock d) = some (.dclock d) := by
  have hlen : ¬ (encodeDClock d).length < 86 := Nat.lt_irrefl 86
  have hflags : rd8 (encodeDClock d) 1 = dcFlagsByte d ∧ rd8 (encodeDClock d) 14 = bitAt d.int0Status 0 ∧
      rd8 (encodeDClock d) 15 = bitAt d.int1Status 0 := ⟨rfl, rfl, rfl⟩
  have hlatches : rd8 (encodeDClock d) 40 = latchByte d.latch0PosEdge d.latch0NegEdge ∧
      rd8 (encodeDClock d) 41 = latchByte d.latch1PosEdge d.latch1NegEdge ∧
      rd8 (encodeDClock d) 42 = latchByte d.latch0PosEvent d.latch0NegEvent ∧
      rd8 (encodeDClock d) 43 = latchByte d.latch1PosEvent d.latch1NegEvent := ⟨rfl, rfl, rfl, rfl⟩
  have hpulse : rd16 (encodeDClock d) 2 = d.syncPulse := u16of_extract _
  have htimes : rd32 (encodeDClock d) 16 = d.cyclicOpStart ∧ rd32 (encodeDClock d) 32 = d.sync0Cycle ∧
      rd32 (encodeDClock d) 36 = d.sync1Cycle := ⟨u32of_extract _, u32of_extract _, u32of_extract _⟩
  have hvalues : rd32 (encodeDClock d) 54 = d.latch0PosVal ∧ rd32 (encodeDClock d) 62 = d.latch0NegVal ∧
      rd32 (encodeDClock d) 70 = d.latch1PosVal ∧ rd32 (encodeDClock d) 78 = d.latch1NegVal :=
    ⟨u32of_extract _, u32of_extract _, u32of_extract _, u32of_extract _⟩
  rw [decodeDClock, if_neg hlen]
  simp [hflags, hlatches, hpulse, htimes, hvalues, dcFlagsByte]

/-- Settles O28, codec by codec. -/
theorem codecRoundTrip : Obligations.CodecRoundTrip := by
  intro v hv hne
  cases v with
  | strings strs =>
    simp only [payloadBounded, Bool.and_eq_true, decide_eq_true_eq, List.all_eq_true] at hv
    obtain ⟨hcount, hlength⟩ := hv
    exact decodeStrings_encodeStrings hcount hlength
  | datatypes => exact absurd rfl hne
  | general g => exact decodeGeneral_encodeGeneral g
  | fmmu us => exact decodeFmmu_encodeFmmu us
  | syncM es => exact decodeSyncM_encodeSyncM es
  | pdo d =>
    have hdecode := decodePdo_encodePdo (of_decide_eq_true hv)
    obtain ⟨dir, index, sm, dcSync, nameIdx, flags, entries⟩ := d
    cases dir <;> exact hdecode
  | dclock d => exact decodeDClock_encodeDClock d

end Sys2Proof.Machine
end

section
/-! SUPPORT. The sections the walker steps over (43_category_codecs.md R205, R206). -/

namespace Sys2Proof.Machine

theorem skipSection_of_room {s : State} (h : s.config.diagCap ≠ some s.diags.length) (c : Code) (t : U16) (p : Bytes) :
    skipSection c t p s = afterSkipped (codeByte c) t p s := by
  obtain ⟨hfull, -⟩ | ⟨-, hskip⟩ := skipSection_cases c t p s
  · exact absurd hfull h
  · exact hskip

/-- A skipped payload counts by its length alone (44_walker.md R277). -/
theorem skipSection_congr {p q : Bytes} (h : p.length = q.length) (c : Code) (t : U16) (s : State) :
    skipSection c t p s = skipSection c t q s := by
  simp only [skipSection, h]

theorem exec_datatypes (p : Bytes) (s : State) :
    exec (.datatypes p) s = .next (skipSection .unimplementedCategory 20 p s) := rfl

theorem exec_unknown (t : U16) (p : Bytes) (s : State) :
    exec (.unknown t p) s = .next (skipSection .unknownCategory t p s) := rfl

/-- Settles O33: Datatypes and unknown sections are skipped sections, each with its code. -/
theorem skippedSectionsOnlyLeaveADiagnostic : Obligations.SkippedSectionsOnlyLeaveADiagnostic := by
  refine ⟨fun p s hroom => ?_, fun t p s hroom => ?_, fun t p q s hlen => ⟨?_, ?_⟩⟩
  · rw [exec_datatypes, skipSection_of_room hroom]
    rfl
  · rw [exec_unknown, skipSection_of_room hroom]
    rfl
  · rw [exec_datatypes, exec_datatypes, skipSection_congr hlen]
  · rw [exec_unknown, exec_unknown, skipSection_congr hlen]

end Sys2Proof.Machine
end

section
/-! SUPPORT. The sections the walker stores, the terminator, and what a fatal error of DECODE leaves
(44_walker.md R270 to R274; 60_exceptions.md R321, R332). -/

namespace Sys2Proof.Machine

/-! ## A stored section -/

theorem storeSection_of_room {s : State} (h : s.config.catCap ≠ some s.cats.length) (t : U16) (v : Payload)
    (p : Bytes) : storeSection t (some v) p s = afterStored t p v s := by
  obtain ⟨hnone, -⟩ | ⟨x, -, hfull, -⟩ | ⟨x, hx, -, hstore⟩ := storeSection_cases t (some v) p s
  · cases hnone
  · exact absurd hfull h
  · cases hx
    exact hstore

/-- The seven arms with a codec share one shape: the codec's answer is stored. -/
theorem next_storeSection_of_room {s : State} (h : s.config.catCap ≠ some s.cats.length) (t : U16) {p : Bytes}
    {answer : Option Payload} {v : Payload} (hv : answer = some v) :
    (.next (storeSection t answer p s) : Out) = .next (afterStored t p v s) := by
  rw [hv, storeSection_of_room h]

/-- Settles O31: each of the seven arms stores what its codec answers. -/
theorem decodedSectionsAreAppended : Obligations.DecodedSectionsAreAppended := fun _ _ _ hroom =>
  ⟨next_storeSection_of_room hroom 10, next_storeSection_of_room hroom 30, next_storeSection_of_room hroom 40,
    next_storeSection_of_room hroom 41, next_storeSection_of_room hroom 50, next_storeSection_of_room hroom 51,
    next_storeSection_of_room hroom 60⟩

/-! ## The terminator -/

theorem exec_endMark (s : State) : exec .endMark s =
    .next (finish (s.w.pos + 2) (countWord s.diags.length) .none
      { s with w := { s.w with pos := s.w.pos + 2, phase := .terminal } }) := rfl

/-- Settles O34: END is one update of the state. -/
theorem endMarkEndsDecodeOk : Obligations.EndMarkEndsDecodeOk := exec_endMark

/-! ## A fatal error -/

/-- A table of codes that agrees with `codeByte` row by row gives each event its number. -/
theorem codeByte_eq_of_mem {table : List (Code × Byte)} (htable : ∀ row ∈ table, codeByte row.1 = row.2) {c : Code}
    {k : Byte} (h : (c, k) ∈ table) : codeByte c = k := htable _ h

/-- Settles O37: the table of codes is `codeByte`, and the two operations are read field by field. -/
theorem decodeErrorLeavesNoPartialImage : Obligations.DecodeErrorLeavesNoPartialImage := by
  intro c k hrow t p s
  obtain rfl : codeByte c = k := codeByte_eq_of_mem (by decide) hrow
  exact ⟨rfl, rfl, rfl, rfl, rfl, rfl, rfl, rfl, rfl, rfl, rfl, rfl, rfl, rfl, refuse_eq_afterRefusal c s⟩

end Sys2Proof.Machine
end

section
/-! SUPPORT. A descriptor boundary by the bytes that are left there (44_walker.md R264, R265). -/

namespace Sys2Proof.Machine

/-! ## The tests of a descriptor, in their order -/

theorem decodeSection_of_no_type {b : Bytes} (h : b.length < 2) : decodeSection b = .error .noTypeWord := if_pos h

theorem decodeSection_of_endType {b : Bytes} (hlen : 2 ≤ b.length) (ht : rd16 b 0 = Config.endType) :
    decodeSection b = .ok .endMark := by
  rw [decodeSection, if_neg (by omega), if_pos ht]

theorem decodeSection_of_no_size {b : Bytes} (hlen : 2 ≤ b.length) (ht : rd16 b 0 ≠ Config.endType)
    (hshort : b.length < 4) : decodeSection b = .error (.noSizeWord (rd16 b 0)) := by
  rw [decodeSection, if_neg (by omega), if_neg ht, if_pos hshort]

theorem decodeSection_of_no_payload {b : Bytes} (hlen : 4 ≤ b.length) (ht : rd16 b 0 ≠ Config.endType)
    (hshort : b.length - 4 < 2 * (rd16 b 2).toNat) :
    decodeSection b = .error (.payloadShort (rd16 b 0) (rd16 b 2)) := by
  rw [decodeSection, if_neg (by omega), if_neg ht, if_neg (by omega), if_pos hshort]

theorem decodeSection_of_fits {b : Bytes} (hlen : 4 ≤ b.length) (ht : rd16 b 0 ≠ Config.endType)
    (hfit : 2 * (rd16 b 2).toNat ≤ b.length - 4) :
    decodeSection b = .ok (sectionInstr (rd16 b 0) ((b.drop 4).take (2 * (rd16 b 2).toNat))) := by
  rw [decodeSection, if_neg (by omega), if_neg ht, if_neg (by omega), if_neg (by omega)]

/-! ## The bytes at the cursor -/

theorem rd8_memRead {s : State} {a n o : Nat} (h : o < n) : rd8 (memRead s a n) o = inByte s.input (a + o) := by
  rw [rd8_of_lt (by simpa using h)]
  simp [memRead, readBlock_eq_map]

theorem rd16_memRead {s : State} {a n o : Nat} (h : o + 1 < n) :
    rd16 (memRead s a n) o = u16of (inByte s.input (a + o)) (inByte s.input (a + o + 1)) := by
  rw [rd16, rd8_memRead (by omega), rd8_memRead h, Nat.add_assoc]

theorem drop_memRead {s : State} {a k n : Nat} (h : k ≤ n) : (memRead s a n).drop k = memRead s (a + k) (n - k) := by
  obtain ⟨m, rfl⟩ := Nat.exists_eq_add_of_le h
  rw [memRead, readBlock_add, List.drop_left' (readBlock_length _ _ _), Nat.add_sub_cancel_left, memRead]

/-! ## The step at a descriptor boundary -/

section

variable {s : State} (hp : s.w.phase = .inSection)

include hp

theorem step_of_section_fetched {i : Instr}
    (h : decodeSection (memRead s s.w.pos.toNat (s.w.limit.toNat - s.w.pos.toNat)) = .ok i) : step s = exec i s :=
  step_of_fetched (by rw [hp]; rfl) ((fetchItem_inSection hp).trans h)

theorem step_of_section_error {e : DecodeError}
    (h : decodeSection (memRead s s.w.pos.toNat (s.w.limit.toNat - s.w.pos.toNat)) = .error e) :
    step s = .next (fetchFailed e s) :=
  step_of_fetch_error (by rw [hp]; rfl) ((fetchItem_inSection hp).trans h)

end

/-- Settles O35: the tests of `decodeSection` in their order, on the bytes between the cursor and the end of the
input. -/
theorem descriptorBoundaryCases : Obligations.DescriptorBoundaryCases := by
  rintro s q r t w hp rfl rfl ht hw
  have htype (h : 2 ≤ s.w.limit.toNat - s.w.pos.toNat) :
      rd16 (memRead s s.w.pos.toNat (s.w.limit.toNat - s.w.pos.toNat)) 0 = t := (rd16_memRead h).trans ht.symm
  have hsize (h : 4 ≤ s.w.limit.toNat - s.w.pos.toNat) :
      rd16 (memRead s s.w.pos.toNat (s.w.limit.toNat - s.w.pos.toNat)) 2 = w := (rd16_memRead h).trans hw.symm
  refine ⟨fun hr => ?_, fun hr hend => ?_, fun hr hshort hne => ?_, fun hr hne hshort => ?_, fun hr hne hfit => ?_⟩
  · exact step_of_section_error hp (decodeSection_of_no_type (by simpa using hr))
  · exact step_of_section_fetched hp (decodeSection_of_endType (by simpa using hr) ((htype hr).trans hend))
  · have hfetch := decodeSection_of_no_size (by simpa using hr) ((htype hr).trans_ne hne) (by simpa using hshort)
    rw [htype hr] at hfetch
    exact step_of_section_error hp hfetch
  · have hfetch := decodeSection_of_no_payload (by simpa using hr) ((htype (by omega)).trans_ne hne)
      (by rw [hsize hr]; simpa using hshort)
    rw [htype (by omega), hsize hr] at hfetch
    exact step_of_section_error hp hfetch
  · have hfetch := decodeSection_of_fits (by simpa using hr) ((htype (by omega)).trans_ne hne)
      (by rw [hsize hr]; simpa using hfit)
    rw [htype (by omega), hsize hr, drop_memRead hr, take_memRead hfit] at hfetch
    exact step_of_section_fetched hp hfetch

end Sys2Proof.Machine
end

section
/-! SUPPORT. What a step of a walk answers beside its effect: where an error stands, and the response at the terminator
(44_walker.md R262 to R265, R272 to R276). -/

namespace Sys2Proof.Machine

/-- Where the item stands that the walk fetches next (44_walker.md R262, R263, R264). -/
def itemStart (w : Walker) : U32 :=
  match w.phase with
  | .preamble => 0
  | .stdConfig => 16
  | .inSection | .idle | .terminal | .failed => w.pos

theorem itemStart_inSection {w : Walker} (h : w.phase = .inSection) : itemStart w = w.pos := by simp only [itemStart, h]

/-- A step from `s` to `t` keeps the limit, raises its errors where the item stands that it fetched, and at the
terminator answers the cursor and the number of diagnostics. -/
structure StepAnswers (s t : State) : Prop where
  limit : t.w.limit = s.w.limit
  failed : t.w.phase = .failed → t.w.pos = itemStart s.w
  terminal : t.w.phase = .terminal →
    t.rsp = { status := 0, val0 := t.w.pos, val1 := countWord t.diags.length, result := .none }

theorem StepAnswers.raised {c : Code} {t : U16} {p : U32} {s u : State} (hp : p = itemStart s.w)
    (hlimit : u.w.limit = s.w.limit) : StepAnswers s (raiseDecode c t p u) :=
  ⟨hlimit, fun _ => hp, nofun⟩

theorem StepAnswers.of_walking {s t : State} (hw : walking t.w.phase = true) (hlimit : t.w.limit = s.w.limit) :
    StepAnswers s t :=
  ⟨hlimit, fun h => absurd hw (by rw [h]; decide), fun h => absurd hw (by rw [h]; decide)⟩

/-! ## The two header blocks -/

theorem execPreamble_answers {s : State} (hp : s.w.phase = .preamble) (p : Bytes) :
    ∃ t, execPreamble p s = .next t ∧ StepAnswers s t := by
  unfold execPreamble
  split
  · exact ⟨_, rfl, .of_walking rfl rfl⟩
  · refine ⟨_, rfl, ?_⟩
    obtain ⟨-, h⟩ | ⟨-, h⟩ := withDiag_cases .checksumInvalid 0 0 enterStdConfig
      { s with pre := loadPreamble p (checksumFlag p) }
    · exact h ▸ .raised (by simp only [itemStart, hp]) rfl
    · exact h ▸ .of_walking rfl rfl

theorem walkStep_preamble_answers {s : State} (hp : s.w.phase = .preamble) :
    ∃ t, walkStep s = .next t ∧ StepAnswers s t := by
  by_cases hn : s.w.limit.toNat < 16
  · exact ⟨_, walkStep_of_fetch_error (fetchItem_preamble_short hp hn), .raised (by simp only [itemStart, hp]) rfl⟩
  · rw [walkStep_of_fetched (fetchItem_preamble_long hp (by omega))]
    exact execPreamble_answers hp _

theorem walkStep_stdConfig_answers {s : State} (hp : s.w.phase = .stdConfig) :
    ∃ t, walkStep s = .next t ∧ StepAnswers s t := by
  by_cases hn : s.w.limit.toNat < 128
  · exact ⟨_, walkStep_of_fetch_error (fetchItem_stdConfig_short hp hn), .raised (by simp only [itemStart, hp]) rfl⟩
  · exact ⟨_, walkStep_of_fetched (fetchItem_stdConfig_long hp (by omega)), .of_walking rfl rfl⟩

/-! ## The section loop -/

theorem decodeSection_error {b : Bytes} {e : DecodeError} (h : decodeSection b = .error e) :
    e = .noTypeWord ∨ (∃ t, e = .noSizeWord t) ∨ ∃ t w, e = .payloadShort t w := by
  unfold decodeSection at h
  split at h
  · cases h; exact .inl rfl
  · split at h
    · cases h
    · split at h
      · cases h; exact .inr (.inl ⟨_, rfl⟩)
      · split at h <;> cases h
        exact .inr (.inr ⟨_, _, rfl⟩)

section

variable {s : State} (hp : s.w.phase = .inSection)

include hp

theorem fetchFailed_answers {e : DecodeError} (h : fetchItem s = .error e) : StepAnswers s (fetchFailed e s) := by
  have hstart := (itemStart_inSection hp).symm
  obtain rfl | ⟨t, rfl⟩ | ⟨t, w, rfl⟩ := decodeSection_error ((fetchItem_inSection hp).symm.trans h)
  · exact .raised hstart rfl
  · exact .raised hstart rfl
  · exact .raised hstart rfl

theorem storeSection_answers (t : U16) (v : Option Payload) (p : Bytes) : StepAnswers s (storeSection t v p s) := by
  have hstart := (itemStart_inSection hp).symm
  obtain ⟨-, h⟩ | ⟨x, -, -, h⟩ | ⟨x, -, -, h⟩ := storeSection_cases t v p s
  · exact h ▸ .raised hstart rfl
  · exact h ▸ .raised hstart rfl
  · exact h ▸ .of_walking (by simp [hp, walking]) rfl

theorem skipSection_answers (c : Code) (t : U16) (p : Bytes) : StepAnswers s (skipSection c t p s) := by
  obtain ⟨-, h⟩ | ⟨-, h⟩ := skipSection_cases c t p s
  · exact h ▸ .raised (itemStart_inSection hp).symm rfl
  · exact h ▸ .of_walking (by simp [hp, walking]) rfl

theorem walkStep_inSection_answers : ∃ t, walkStep s = .next t ∧ StepAnswers s t := by
  cases hf : fetchItem s with
  | error e => exact ⟨_, walkStep_of_fetch_error hf, fetchFailed_answers hp hf⟩
  | ok i =>
    rw [walkStep_of_fetched hf]
    obtain rfl | ⟨t, p, rfl, -⟩ := fetchItem_inSection_ok hp hf
    · exact ⟨_, rfl, rfl, nofun, fun _ => rfl⟩
    · obtain h | ⟨c, -, h⟩ := execWire_sectionInstr_cases t p s
      · exact ⟨_, h, storeSection_answers hp _ _ _⟩
      · exact ⟨_, h, skipSection_answers hp _ _ _⟩

end

theorem walkStep_answers {s t : State} (hw : walking s.w.phase = true) (h : walkStep s = .next t) :
    StepAnswers s t := by
  have hall : ∃ u, walkStep s = .next u ∧ StepAnswers s u := by
    cases hp : s.w.phase with
    | preamble => exact walkStep_preamble_answers hp
    | stdConfig => exact walkStep_stdConfig_answers hp
    | inSection => exact walkStep_inSection_answers hp
    | idle | terminal | failed => simp [hp, walking] at hw
  obtain ⟨u, hu, hanswers⟩ := hall
  cases hu.symm.trans h
  exact hanswers

/-- The cursor does not wrap around behind the terminator (44_walker.md R272, R276). -/
theorem pos_add_two_toNat {w : Walker} (h : w.pos.toNat + 2 ≤ w.limit.toNat) : (w.pos + 2).toNat = w.pos.toNat + 2 := by
  have hlimit := w.limit.isLt
  exact BitVec.toNat_add_of_lt (show w.pos.toNat + 2 < 2 ^ 32 by omega)

/-- Settles O42: by the effect of the step, with the cursor behind a section or the terminator that fits in the
input. -/
theorem cursorIsMonotonicAndBounded : Obligations.CursorIsMonotonicAndBounded := by
  intro s hp _
  have hw : walking s.w.phase = true := by rw [hp]; rfl
  have past {ty : U16} {p : Bytes} (hsec : SectionAtCursor p s.w) :
      s.w.pos.toNat + 4 ≤ (walkedPast ty p s.w).pos.toNat ∧ (walkedPast ty p s.w).pos.toNat ≤ s.w.limit.toNat := by
    have hfits := hsec.fits
    rw [walkedPast_pos_toNat hfits]
    omega
  obtain ⟨t, ht⟩ := walkStep_next s
  have hanswers := walkStep_answers hw ht
  refine ⟨t, (step_walking hw).trans ht, hanswers.limit, ?_⟩
  cases walkStep_effect hw ht with
  | raised => exact .inr (.inr ⟨rfl, (hanswers.failed rfl).trans (itemStart_inSection hp)⟩)
  | preambleLoaded _ hpre | preambleDiagnosed _ hpre => cases hp.symm.trans hpre
  | stdConfigLoaded _ hstd => cases hp.symm.trans hstd
  | stored hsec => exact .inl ⟨hp, past hsec⟩
  | skipped hsec => exact .inl ⟨hp, past hsec⟩
  | ended _ hfit =>
    have hpos := pos_add_two_toNat hfit
    exact .inr (.inl ⟨rfl, hpos, hpos.le.trans hfit⟩)

end Sys2Proof.Machine
end

section
/-! SUPPORT. How a DECODE that is not refused ends: its response, its record, and the cursor inside the input
(44_walker.md R260, R273, R274, R276). -/

namespace Sys2Proof.Machine

/-- A walk over `n` bytes in progress: its item stands inside the input, and no result of an earlier command is left. -/
structure WalkRuns (n : U32) (s : State) : Prop where
  walking : walking s.w.phase = true
  limit : s.w.limit = n
  start : (itemStart s.w).toNat ≤ n.toNat
  header : s.w.phase = .inSection → 128 ≤ s.w.pos.toNat
  err : s.err = ErrRec.zero
  outValid : s.outValid = false

/-- DECODE of `n` bytes ended ok (44_walker.md R273). -/
structure DecodeOk (n : U32) (s : State) : Prop where
  phase : s.w.phase = .terminal
  status : s.status = 0
  err : s.err = ErrRec.zero
  rsp : s.rsp = { status := 0, val0 := s.w.pos, val1 := countWord s.diags.length, result := .none }
  header : 130 ≤ s.w.pos.toNat
  inside : s.w.pos.toNat ≤ n.toNat
  outValid : s.outValid = false

/-- DECODE of `n` bytes ended by a fatal error (44_walker.md R274). -/
structure DecodeFailed (n : U32) (s : State) : Prop where
  phase : s.w.phase = .failed
  status : s.status ∈ decodeErrorCodes
  code : s.err.code = s.status
  pos : s.err.pos = s.w.pos
  pre : s.pre = Preamble.empty
  cfg : s.cfg = StdConfig.empty
  cats : s.cats = []
  diags : s.diags = []
  rsp : s.rsp = { status := s.status, val0 := s.w.pos, val1 := 0, result := .none }
  inside : s.w.pos.toNat ≤ n.toNat
  outValid : s.outValid = false

/-- Where a DECODE of `n` bytes stands: under way, or ended in one of its two ways. -/
inductive DecodeStage (n : U32) (s : State) : Prop
  | runs (h : WalkRuns n s)
  | ok (h : DecodeOk n s)
  | failed (h : DecodeFailed n s)

theorem walkRuns_startDecode (n : U32) (s : State) : WalkRuns n (startDecode n s) :=
  ⟨rfl, rfl, Nat.zero_le _, nofun, rfl, rfl⟩

theorem DecodeStage.runs_of_walking {n : U32} {s : State} (h : DecodeStage n s) (hw : walking s.w.phase = true) :
    WalkRuns n s := by
  cases h with
  | runs h => exact h
  | ok h => rw [h.phase] at hw; cases hw
  | failed h => rw [h.phase] at hw; cases hw

theorem decodeFailed_raiseDecode {n : U32} {c : Code} {t : U16} {p : U32} {s : State}
    (hc : codeByte c ∈ decodeErrorCodes) (hp : p.toNat ≤ n.toNat) : DecodeFailed n (raiseDecode c t p s) :=
  ⟨rfl, hc, rfl, rfl, rfl, rfl, rfl, rfl, rfl, hp, rfl⟩

/-- The cursor behind a section is the next item's start. -/
theorem WalkRuns.past_section {n : U32} {s t : State} (h : WalkRuns n s) {ty : U16} {p : Bytes}
    (hsec : SectionAtCursor p s.w) (hw : t.w = walkedPast ty p s.w) (herr : t.err = s.err)
    (hout : t.outValid = s.outValid) : WalkRuns n t := by
  have hphase : t.w.phase = .inSection := hw ▸ hsec.phase
  have hheader := h.header hsec.phase
  have hfits := h.limit ▸ hsec.fits
  have hpos : t.w.pos.toNat = s.w.pos.toNat + (4 + p.length) := hw ▸ walkedPast_pos_toNat hsec.fits
  refine ⟨by rw [hphase]; rfl, hw ▸ h.limit, ?_, fun _ => by omega, herr.trans h.err, hout.trans h.outValid⟩
  rw [itemStart_inSection hphase]
  omega

theorem WalkRuns.step {n : U32} {s t : State} (h : WalkRuns n s) (ht : walkStep s = .next t) : DecodeStage n t := by
  have hanswers := walkStep_answers h.walking ht
  have hlimit := h.limit
  cases walkStep_effect h.walking ht with
  | raised hc =>
    have hpos := congrArg BitVec.toNat (hanswers.failed rfl)
    exact .failed (decodeFailed_raiseDecode hc (hpos.trans_le h.start))
  | preambleLoaded hroom | preambleDiagnosed hroom =>
    exact .runs ⟨rfl, hlimit, hlimit ▸ hroom, nofun, h.err, h.outValid⟩
  | stdConfigLoaded hroom => exact .runs ⟨rfl, hlimit, hlimit ▸ hroom, fun _ => Nat.le_refl 128, h.err, h.outValid⟩
  | stored hsec => exact .runs (h.past_section hsec rfl rfl rfl)
  | skipped hsec => exact .runs (h.past_section hsec rfl rfl rfl)
  | ended hp hfit =>
    have hpos := pos_add_two_toNat hfit
    exact .ok ⟨rfl, rfl, h.err, hanswers.terminal rfl, (Nat.add_le_add_right (h.header hp) 2).trans hpos.ge,
      hpos.le.trans (hlimit ▸ hfit), h.outValid⟩

theorem exec_decode_ends {n : U32} {s : State} (hn : n.toNat ≤ s.config.inCap.toNat) :
    ∃ t, exec (.decode n) s = .next t ∧ WalkKeeps s t ∧ (DecodeOk n t ∨ DecodeFailed n t) := by
  obtain ⟨t, ht, hended⟩ := runWalk_startDecode_ended n s
  have hkeeps : WalkKeeps s t := .trans (t := startDecode n s) {} (runWalk_keeps_frame ht)
  have hstage : DecodeStage n t := runWalk_keeps (DecodeStage n)
    (fun _ _ hstage hw hstep => (hstage.runs_of_walking hw).step hstep) (.runs (walkRuns_startDecode n s)) ht
  refine ⟨t, (exec_decode_of_le hn).trans ht, hkeeps, ?_⟩
  cases hstage with
  | runs h => exact absurd h.walking hended.not_walking
  | ok h => exact .inl h
  | failed h => exact .inr h

theorem exec_decode_of_gt {n : U32} {s : State} (h : s.config.inCap.toNat < n.toNat) :
    exec (.decode n) s = .next (refuse .badOperand s) := by
  simp only [exec, execDecode, if_neg (Nat.not_le.mpr h)]

/-- Settles O38: the operand's test, and behind it the two ends of a walk. -/
theorem decodeEndsOkOrFatal : Obligations.DecodeEndsOkOrFatal := by
  refine ⟨fun _ _ _ => rfl, fun n s => ⟨fun hgt => exec_decode_of_gt hgt, fun hle => ?_⟩⟩
  obtain ⟨t, ht, hkeeps, hok | hfailed⟩ := exec_decode_ends hle
  · exact ⟨t, ht,
      .inl ⟨hok.phase, hok.status, hok.err, hok.rsp, hok.header, hok.inside⟩,
      hok.outValid, hkeeps.crc, hkeeps.e, hkeeps.input, hkeeps.host, hkeeps.config⟩
  · exact ⟨t, ht,
      .inr ⟨hfailed.phase, hfailed.status, hfailed.code, hfailed.pos, hfailed.pre, hfailed.cfg, hfailed.cats,
        hfailed.diags, hfailed.rsp, hfailed.inside⟩,
      hfailed.outValid, hkeeps.crc, hkeeps.e, hkeeps.input, hkeeps.host, hkeeps.config⟩

end Sys2Proof.Machine
end

section
/-! SUPPORT. A walk depends on the bytes of IN below its limit alone: only the fetch reads IN, and only there
(44_walker.md R277; 20_memory.md R61). -/

namespace Sys2Proof.Machine

/-- The state with other contents of IN. -/
def withInput (m : Memory) (s : State) : State := { s with input := m }

@[simp] theorem withInput_w (m : Memory) (s : State) : (withInput m s).w = s.w := rfl
@[simp] theorem withInput_self (s : State) : withInput s.input s = s := rfl

/-! ## What does not read IN -/

theorem withDiag_withInput {k : State → State} {m : Memory} (hk : ∀ u, k (withInput m u) = withInput m (k u)) (c : Code)
    (t : U16) (p : U32) (s : State) : withDiag c t p k (withInput m s) = withInput m (withDiag c t p k s) := by
  unfold withDiag
  rw [apply_ite (withInput m), ← hk]
  rfl

theorem storeSection_withInput (t : U16) (v : Option Payload) (p : Bytes) (m : Memory) (s : State) :
    storeSection t v p (withInput m s) = withInput m (storeSection t v p s) := by
  cases v with
  | none => rfl
  | some v =>
    dsimp only [storeSection]
    rw [apply_ite (withInput m)]
    rfl

theorem skipSection_withInput (c : Code) (t : U16) (p : Bytes) (m : Memory) (s : State) :
    skipSection c t p (withInput m s) = withInput m (skipSection c t p s) :=
  withDiag_withInput (k := advance p.length) (fun _ => rfl) c t s.w.pos
    (noteSection t (BitVec.ofNat 16 (p.length / 2)) s)

theorem execPreamble_withInput {p : Bytes} {s t : State} (m : Memory) (h : execPreamble p s = .next t) :
    execPreamble p (withInput m s) = .next (withInput m t) := by
  unfold execPreamble at h ⊢
  split at h <;> cases h
  · rfl
  · exact congrArg Host.Outcome.next (withDiag_withInput (k := enterStdConfig) (fun _ => rfl) .checksumInvalid 0 0
      { s with pre := loadPreamble p (checksumFlag p) })

/-- Executing an item takes its bytes from the instruction, not from IN. -/
theorem execWire_withInput {i : Instr} {s t : State} (m : Memory) (h : execWire i s = .next t) :
    execWire i (withInput m s) = .next (withInput m t) := by
  cases i with
  | preamble p => exact execPreamble_withInput m h
  | strings | general | fmmu | syncm | txpdo | rxpdo | dclock =>
    cases h
    exact congrArg Host.Outcome.next (storeSection_withInput _ _ _ m s)
  | datatypes | unknown =>
    cases h
    exact congrArg Host.Outcome.next (skipSection_withInput _ _ _ m s)
  | _ => cases h; rfl

theorem fetchFailed_withInput (e : DecodeError) (m : Memory) (s : State) :
    fetchFailed e (withInput m s) = withInput m (fetchFailed e s) := by
  cases e <;> rfl

/-! ## What reads it -/

/-- IN of `s` and the contents `m` hold the same bytes below the limit of the walk. -/
def AgreesBelowLimit (s : State) (m : Memory) : Prop := ∀ a, a < s.w.limit.toNat → inByte s.input a = inByte m a

/-- No fetch reads a byte at or above the limit. -/
theorem fetchItem_withInput {s : State} {m : Memory} (h : AgreesBelowLimit s m) :
    fetchItem (withInput m s) = fetchItem s := by
  have hread (a : Nat) : memRead (withInput m s) a (s.w.limit.toNat - a) = memRead s a (s.w.limit.toNat - a) :=
    (readBlock_congr fun x _ _ => h x (by omega)).symm
  cases hp : s.w.phase with
  | preamble =>
    rw [fetchItem_preamble hp, fetchItem_preamble (s := withInput m s) hp]
    exact congrArg (fun b => decode (.item .preamble b)) (hread 0)
  | stdConfig =>
    rw [fetchItem_stdConfig hp, fetchItem_stdConfig (s := withInput m s) hp]
    exact congrArg (fun b => decode (.item .stdConfig b)) (hread 16)
  | inSection | idle | terminal | failed =>
    simp only [fetchItem, withInput_w, hp]
    exact congrArg (decodeItem .descriptor) (hread _)

theorem walkStep_withInput {s t : State} {m : Memory} (hm : AgreesBelowLimit s m) (h : walkStep s = .next t) :
    walkStep (withInput m s) = .next (withInput m t) := by
  cases hf : fetchItem s with
  | error e =>
    cases (walkStep_of_fetch_error hf).symm.trans h
    rw [walkStep_of_fetch_error ((fetchItem_withInput hm).trans hf), fetchFailed_withInput]
  | ok i =>
    rw [walkStep_of_fetched ((fetchItem_withInput hm).trans hf)]
    exact execWire_withInput m ((walkStep_of_fetched hf).symm.trans h)

theorem AgreesBelowLimit.walkStep {s t : State} {m : Memory} (h : AgreesBelowLimit s m)
    (hw : walking s.w.phase = true) (ht : walkStep s = .next t) : AgreesBelowLimit t m := by
  unfold AgreesBelowLimit
  rw [(walkStep_answers hw ht).limit, (walkStep_effect hw ht).keeps.input]
  exact h

theorem runWalk_withInput {k : Nat} {s t : State} {m : Memory} (hm : AgreesBelowLimit s m) (h : runWalk k s = .next t) :
    runWalk k (withInput m s) = .next (withInput m t) := by
  induction k generalizing s with
  | zero => cases h; rfl
  | succ k ih =>
    by_cases hw : walking s.w.phase = true
    · obtain ⟨u, hu⟩ := walkStep_next s
      rw [runWalk_succ hw hu] at h
      rw [runWalk_succ (s := withInput m s) hw (walkStep_withInput hm hu)]
      exact ih (hm.walkStep hw hu) h
    · cases (runWalk_of_not_walking hw (k + 1)).symm.trans h
      exact runWalk_of_not_walking (s := withInput m t) hw (k + 1)

theorem exec_decode_withInput {n : U32} {s : State} {m : Memory}
    (hm : ∀ a, a < n.toNat → inByte s.input a = inByte m a) :
    ∃ t, exec (.decode n) s = .next t ∧ t.input = s.input ∧
      exec (.decode n) (withInput m s) = .next (withInput m t) := by
  by_cases hn : n.toNat ≤ s.config.inCap.toNat
  · obtain ⟨t, ht⟩ := runWalk_next (walkBound n) (startDecode n s)
    exact ⟨t, (exec_decode_of_le hn).trans ht, (runWalk_keeps_frame ht).input,
      (exec_decode_of_le (s := withInput m s) hn).trans (runWalk_withInput (s := startDecode n s) hm ht)⟩
  · have hgt := Nat.lt_of_not_le hn
    exact ⟨_, exec_decode_of_gt hgt, rfl, exec_decode_of_gt (s := withInput m s) hgt⟩

/-- Settles O41: the run on `m'` is the run on `m` with the contents of IN replaced. -/
theorem decodeReadsOnlyItsInput : Obligations.DecodeReadsOnlyItsInput := by
  intro n s m m' hagree
  obtain ⟨t, ht, hinput, ht'⟩ := exec_decode_withInput (s := withInput m s) hagree
  have hself : withInput m t = t := by
    rw [← show t.input = m from hinput, withInput_self]
  exact ⟨t, ht.trans (congrArg Host.Outcome.next hself.symm), ht'⟩

end Sys2Proof.Machine
end

section
/-! SUPPORT. DECODE of an image of accepted sections, item by item (44_walker.md R260 to R273). -/

namespace Sys2Proof.Machine

/-! ## Capacities -/

/-- A list that more elements still fit behind is not at its capacity. -/
theorem ne_some_of_withinCap {cap : Option Nat} {m n : Nat} (h : withinCap cap n = true) (hlt : m < n) :
    cap ≠ some m := by
  rintro rfl
  simp only [withinCap, decide_eq_true_eq] at h
  omega

/-! ## Which sections are stored -/

theorem execWire_of_codecType {t : U16} (h : codecTypes.contains t = true) (p : Bytes) (s : State) :
    execWire (sectionInstr t p) s = .next (storeSection t (decodePayload t p) p s) := by
  simp only [codecTypes, List.contains_iff_mem, List.mem_cons, List.not_mem_nil, or_false] at h
  obtain rfl | rfl | rfl | rfl | rfl | rfl | rfl := h <;> rfl

theorem codecTypes_not_contains_iff (t : U16) : codecTypes.contains t = false ↔
    ¬ t.toNat = 10 ∧ ¬ t.toNat = 30 ∧ ¬ t.toNat = 40 ∧ ¬ t.toNat = 41 ∧ ¬ t.toNat = 50 ∧ ¬ t.toNat = 51 ∧
      ¬ t.toNat = 60 := by
  simp [codecTypes, BitVec.toNat_eq]

theorem execWire_of_not_codecType {t : U16} (h : codecTypes.contains t = false) (p : Bytes) (s : State) :
    execWire (sectionInstr t p) s =
      .next (skipSection (if t = 20#16 then .unimplementedCategory else .unknownCategory) t p s) := by
  obtain ⟨h10, h30, h40, h41, h50, h51, h60⟩ := (codecTypes_not_contains_iff t).mp h
  by_cases h20 : t = 20#16
  · subst h20
    rfl
  · have hne : ¬ t.toNat = 20 := fun e => h20 (BitVec.eq_of_toNat_eq e)
    rw [sectionInstr_eq_ite, if_neg h10, if_neg hne, if_neg h30, if_neg h40, if_neg h41, if_neg h50, if_neg h51,
      if_neg h60, if_neg h20]
    rfl

theorem decodePayload_of_not_codecType {t : U16} (h : codecTypes.contains t = false) (p : Bytes) :
    decodePayload t p = none := by
  obtain ⟨h10, h30, h40, h41, h50, h51, h60⟩ := (codecTypes_not_contains_iff t).mp h
  unfold decodePayload
  split
  iterate 7
    next h => contradiction
  rfl

/-- An accepted section has a size in words, is not the terminator, and has an answer of its codec, if there is one. -/
theorem sectionAccepted_iff {t : U16} {p : Bytes} : sectionAccepted t p = true ↔
    payloadWf p = true ∧ t ≠ Config.endType ∧ (codecTypes.contains t = true → ∃ v, decodePayload t p = some v) := by
  simp [sectionAccepted, and_assoc, imp_iff_not_or, Option.isSome_iff_exists]

/-- The state behind the section `(t, p)` that was stored or skipped at the cursor (44_walker.md R270, R271). -/
def afterSection (t : U16) (p : Bytes) (s : State) : State :=
  { s with cats := s.cats ++ sectionNodes t p, diags := s.diags ++ sectionDiags t s.w.pos.toNat,
           w := walkedPast t p s.w }

theorem afterStored_eq_afterSection {t : U16} {p : Bytes} {v : Payload} (ht : codecTypes.contains t = true)
    (hv : decodePayload t p = some v) (s : State) : afterStored t p v s = afterSection t p s := by
  simp only [afterStored, afterSection, sectionNodes, hv, sectionDiags, ht, if_true, List.append_nil]

theorem afterSkipped_eq_afterSection {t : U16} (ht : codecTypes.contains t = false) (p : Bytes) (s : State) :
    afterSkipped (codeByte (if t = 20#16 then .unimplementedCategory else .unknownCategory)) t p s =
      afterSection t p s := by
  have hcode : codeByte (if t = 20#16 then .unimplementedCategory else .unknownCategory) =
      if t = 20#16 then 0x12 else 0x11 := apply_ite codeByte _ _ _
  simp only [afterSkipped, afterSection, sectionNodes, decodePayload_of_not_codecType ht, sectionDiags, ht, hcode,
    Bool.false_eq_true, if_false, List.append_nil, BitVec.ofNat_toNat, BitVec.setWidth_eq]

theorem execWire_of_accepted {t : U16} {p : Bytes} {s : State} (hacc : sectionAccepted t p = true)
    (hcats : withinCap s.config.catCap (s.cats.length + (sectionNodes t p).length) = true)
    (hdiags : withinCap s.config.diagCap (s.diags.length + (sectionDiags t s.w.pos.toNat).length) = true) :
    execWire (sectionInstr t p) s = .next (afterSection t p s) := by
  obtain ⟨-, -, hcodec⟩ := sectionAccepted_iff.mp hacc
  cases ht : codecTypes.contains t with
  | true =>
    obtain ⟨v, hv⟩ := hcodec ht
    have hroom : s.config.catCap ≠ some s.cats.length :=
      ne_some_of_withinCap hcats (by simp only [sectionNodes, hv, List.length_singleton]; omega)
    rw [execWire_of_codecType ht, hv, storeSection_of_room hroom, afterStored_eq_afterSection ht hv]
  | false =>
    have hroom : s.config.diagCap ≠ some s.diags.length :=
      ne_some_of_withinCap hdiags (by
        simp only [sectionDiags, ht, Bool.false_eq_true, if_false, List.length_singleton]
        omega)
    rw [execWire_of_not_codecType ht, skipSection_of_room hroom, afterSkipped_eq_afterSection ht]

/-! ## The bytes left -/

/-- The bytes between the cursor and the end of the input. -/
def bytesLeft (s : State) : Bytes := memRead s s.w.pos.toNat (s.w.limit.toNat - s.w.pos.toNat)

theorem bytesLeft_length (s : State) : (bytesLeft s).length = s.w.limit.toNat - s.w.pos.toNat := memRead_length _ _ _

/-- The cursor that moved over the bytes `x` stands at those behind them. -/
theorem bytesLeft_of_advance {s t : State} {x rest : Bytes} (hleft : bytesLeft s = x ++ rest)
    (hinput : t.input = s.input) (hlimit : t.w.limit = s.w.limit) (hpos : t.w.pos.toNat = s.w.pos.toNat + x.length) :
    bytesLeft t = rest := by
  have hlen : x.length ≤ s.w.limit.toNat - s.w.pos.toNat := by
    rw [← bytesLeft_length, hleft, List.length_append]
    exact Nat.le_add_right _ _
  calc bytesLeft t = memRead s (s.w.pos.toNat + x.length) (s.w.limit.toNat - s.w.pos.toNat - x.length) := by
        rw [bytesLeft, hlimit, hpos, Nat.sub_sub, memRead, hinput, memRead]
    _ = (bytesLeft s).drop x.length := (drop_memRead hlen).symm
    _ = rest := by rw [hleft, List.drop_left]

/-! ## The sections and the terminator -/

theorem sectionBytes_length (t : U16) (p : Bytes) : (sectionBytes t p).length = 4 + p.length := by
  simp only [sectionBytes, List.length_append, le16_length]

theorem sectionsImage_cons (x : U16 × Bytes) (xs : List (U16 × Bytes)) :
    sectionsImage (x :: xs) = sectionBytes x.1 x.2 ++ sectionsImage xs := by
  simp only [sectionsImage, List.flatMap_cons, List.append_assoc]

theorem sectionsImage_length_cons (x : U16 × Bytes) (xs : List (U16 × Bytes)) :
    (sectionsImage (x :: xs)).length = 4 + x.2.length + (sectionsImage xs).length := by
  rw [sectionsImage_cons, List.length_append, sectionBytes_length]

theorem length_le_sectionsImage (secs : List (U16 × Bytes)) : 4 * secs.length + 2 ≤ (sectionsImage secs).length := by
  induction secs with
  | nil => exact Nat.le_refl 2
  | cons x xs ih =>
    rw [sectionsImage_length_cons, List.length_cons]
    omega

/-- An accepted section at the cursor is read, executed, and the cursor stands behind it. -/
theorem walkStep_of_accepted {t : U16} {p rest : Bytes} {s : State} (hp : s.w.phase = .inSection)
    (hleft : bytesLeft s = sectionBytes t p ++ rest) (hacc : sectionAccepted t p = true)
    (hcats : withinCap s.config.catCap (s.cats.length + (sectionNodes t p).length) = true)
    (hdiags : withinCap s.config.diagCap (s.diags.length + (sectionDiags t s.w.pos.toNat).length) = true) :
    walkStep s = .next (afterSection t p s) := by
  obtain ⟨hwf, htype, -⟩ := sectionAccepted_iff.mp hacc
  have hfetch : fetchItem s = .ok (sectionInstr t p) := by
    rw [fetchItem_inSection hp, ← bytesLeft, hleft]
    exact (IsItem.of_sectionBytes htype hwf).decode_append rest
  rw [walkStep_of_fetched hfetch, execWire_of_accepted hacc hcats hdiags]

theorem afterSection_pos_toNat {t : U16} {p rest : Bytes} {s : State} (hleft : bytesLeft s = sectionBytes t p ++ rest) :
    (afterSection t p s).w.pos.toNat = s.w.pos.toNat + (4 + p.length) := by
  have hlen := congrArg List.length hleft
  rw [bytesLeft_length, List.length_append, sectionBytes_length] at hlen
  exact walkedPast_pos_toNat (by omega)

/-- The state behind the sections `secs` and the terminator, with the walker at `w` (44_walker.md R273). -/
def afterImage (secs : List (U16 × Bytes)) (w : Walker) (s : State) : State :=
  finish w.pos (countWord (s.diags ++ imageDiags s.w.pos.toNat secs).length) .none
    { s with cats := s.cats ++ imageNodes secs, diags := s.diags ++ imageDiags s.w.pos.toNat secs, w := w }

theorem afterImage_nil (w : Walker) (s : State) :
    afterImage [] w s = finish w.pos (countWord s.diags.length) .none { s with w := w } := by
  simp only [afterImage, imageNodes, List.flatMap_nil, imageDiags, List.append_nil]

theorem afterImage_ended {w : Walker} (h : w.phase = .terminal) (secs : List (U16 × Bytes)) (s : State) :
    WalkEnded (afterImage secs w s) := .ok h

theorem afterImage_cons {x : U16 × Bytes} {s : State}
    (hpos : (afterSection x.1 x.2 s).w.pos.toNat = s.w.pos.toNat + (4 + x.2.length)) (xs : List (U16 × Bytes))
    (w : Walker) : afterImage (x :: xs) w s = afterImage xs w (afterSection x.1 x.2 s) := by
  rw [afterImage, afterImage, hpos, ← Nat.add_assoc]
  simp only [afterSection, imageNodes, List.flatMap_cons, imageDiags, List.append_assoc]

theorem walkStep_of_terminator {s : State} {rest : Bytes} (hp : s.w.phase = .inSection)
    (hleft : bytesLeft s = [0xFF, 0xFF] ++ rest) :
    walkStep s = .next (afterImage [] { s.w with pos := s.w.pos + 2, phase := .terminal } s) := by
  have hfetch : fetchItem s = .ok .endMark := by
    rw [fetchItem_inSection hp, ← bytesLeft, hleft]
    exact IsItem.endMark.decode_append rest
  rw [walkStep_of_fetched hfetch, afterImage_nil]
  rfl

/-- The section loop over accepted sections, one step each, and one for the terminator. -/
theorem runWalk_sectionsImage {secs : List (U16 × Bytes)} {rest : Bytes} {s : State} (k : Nat)
    (hp : s.w.phase = .inSection) (hleft : bytesLeft s = sectionsImage secs ++ rest)
    (hacc : ∀ x ∈ secs, sectionAccepted x.1 x.2 = true)
    (hcats : withinCap s.config.catCap (s.cats.length + (imageNodes secs).length) = true)
    (hdiags : withinCap s.config.diagCap (s.diags.length + (imageDiags s.w.pos.toNat secs).length) = true) :
    ∃ w, runWalk (secs.length + (k + 1)) s = .next (afterImage secs w s) ∧ w.phase = .terminal ∧
      w.pos.toNat = s.w.pos.toNat + (sectionsImage secs).length := by
  have hw {u : State} (h : u.w.phase = .inSection) : walking u.w.phase = true := by rw [h]; rfl
  induction secs generalizing s with
  | nil =>
    have hfit : s.w.pos.toNat + 2 ≤ s.w.limit.toNat := by
      have hlen := congrArg List.length hleft
      rw [bytesLeft_length, List.length_append, sectionsImage, List.flatMap_nil, List.nil_append] at hlen
      simp only [List.length_cons, List.length_nil] at hlen
      omega
    refine ⟨{ s.w with pos := s.w.pos + 2, phase := .terminal }, ?_, rfl, pos_add_two_toNat hfit⟩
    rw [List.length_nil, Nat.zero_add, runWalk_succ (hw hp) (walkStep_of_terminator hp hleft)]
    exact runWalk_of_not_walking (afterImage_ended rfl [] s).not_walking k
  | cons x xs ih =>
    rw [sectionsImage_cons, List.append_assoc] at hleft
    have hpos := afterSection_pos_toNat hleft
    have hnodes : imageNodes (x :: xs) = sectionNodes x.1 x.2 ++ imageNodes xs := rfl
    have hrecords : imageDiags s.w.pos.toNat (x :: xs) =
        sectionDiags x.1 s.w.pos.toNat ++ imageDiags (afterSection x.1 x.2 s).w.pos.toNat xs := by
      rw [hpos, ← Nat.add_assoc]
      rfl
    rw [hnodes, List.length_append, ← Nat.add_assoc] at hcats
    rw [hrecords, List.length_append, ← Nat.add_assoc] at hdiags
    have hstep := walkStep_of_accepted hp hleft (hacc x List.mem_cons_self)
      (withinCap_of_le hcats (Nat.le_add_right _ _)) (withinCap_of_le hdiags (Nat.le_add_right _ _))
    have hleft' : bytesLeft (afterSection x.1 x.2 s) = sectionsImage xs ++ rest :=
      bytesLeft_of_advance hleft rfl rfl (by rw [hpos, sectionBytes_length])
    obtain ⟨w, hrun, hphase, hend⟩ := ih (s := afterSection x.1 x.2 s) hp hleft'
      (fun y hy => hacc y (List.mem_cons_of_mem x hy))
      (by simpa only [afterSection, List.length_append] using hcats)
      (by simpa only [afterSection, List.length_append] using hdiags)
    refine ⟨w, ?_, hphase, ?_⟩
    · rw [List.length_cons, Nat.add_right_comm, runWalk_succ (hw hp) hstep, hrun, afterImage_cons hpos]
    · rw [hend, hpos, sectionsImage_length_cons, Nat.add_assoc]

/-! ## The header blocks -/

/-- The state behind the preamble `p` (41_header_codecs.md R141). -/
def afterPreamble (p : Bytes) (s : State) : State :=
  enterStdConfig { s with pre := loadPreamble p (checksumFlag p), diags := s.diags ++ headerDiags p }

theorem execWire_preamble {p : Bytes} {s : State}
    (hdiags : withinCap s.config.diagCap (s.diags.length + (headerDiags p).length) = true) :
    execWire (.preamble p) s = .next (afterPreamble p s) := by
  by_cases h : crcFold Config.crcSeed p = 0
  · rw [afterPreamble, checksumFlag_eq_valid_iff.mpr h, headerDiags, if_pos h, List.append_nil]
    exact exec_preamble_valid h s
  · rw [headerDiags, if_neg h] at hdiags
    obtain ⟨hfull, -⟩ | ⟨-, hrecord⟩ := withDiag_cases .checksumInvalid 0 0 enterStdConfig
      { s with pre := loadPreamble p .invalid }
    · exact absurd hfull (ne_some_of_withinCap hdiags (Nat.lt_succ_self _))
    · rw [afterPreamble, checksumFlag_of_residue h, headerDiags, if_neg h]
      exact (exec_preamble_invalid h s).trans (congrArg Host.Outcome.next hrecord)

theorem walkStep_of_preamble {p rest : Bytes} {s : State} (hphase : s.w.phase = .preamble) (hpos : s.w.pos = 0)
    (hleft : bytesLeft s = p ++ rest) (hp : p.length = 16)
    (hdiags : withinCap s.config.diagCap (s.diags.length + (headerDiags p).length) = true) :
    walkStep s = .next (afterPreamble p s) := by
  have hfetch : fetchItem s = .ok (.preamble p) := by
    rw [bytesLeft, hpos] at hleft
    rw [fetchItem_preamble hphase, show memRead s 0 s.w.limit.toNat = p ++ rest from hleft]
    exact (IsItem.preamble hp).decode_append rest
  rw [walkStep_of_fetched hfetch, execWire_preamble hdiags]

/-- The state behind the standard config `c` (41_header_codecs.md R151). -/
def afterStdConfig (c : Bytes) (s : State) : State :=
  { s with cfg := loadStdConfig c, w := { s.w with pos := 128, phase := .inSection } }

theorem walkStep_of_stdConfig {c rest : Bytes} {s : State} (hphase : s.w.phase = .stdConfig) (hpos : s.w.pos = 16)
    (hleft : bytesLeft s = c ++ rest) (hc : c.length = 112) : walkStep s = .next (afterStdConfig c s) := by
  have hfetch : fetchItem s = .ok (.stdconfig c) := by
    rw [bytesLeft, hpos] at hleft
    rw [fetchItem_stdConfig hphase, show memRead s 16 (s.w.limit.toNat - 16) = c ++ rest from hleft]
    exact (IsItem.stdConfig hc).decode_append rest
  rw [walkStep_of_fetched hfetch]
  rfl

/-! ## The whole image -/

theorem bytesLeft_startDecode (n : U32) (s : State) :
    bytesLeft (startDecode n s) = (List.range n.toNat).map (fun k => inByte s.input k) := by
  have hall : bytesLeft (startDecode n s) = readBlock s.input 0 n.toNat := rfl
  rw [hall, readBlock_eq_map]
  simp only [Nat.zero_add]

/-- The steps of a walk over an image fit in its bound: a section takes at least 4 bytes (44_walker.md R276). -/
theorem steps_le_walkBound {n : U32} {p c rest : Bytes} {secs : List (U16 × Bytes)} (hp : p.length = 16)
    (hc : c.length = 112) (hn : n.toNat = (p ++ (c ++ (sectionsImage secs ++ rest))).length) :
    secs.length + 3 ≤ walkBound n := by
  have hsecs := length_le_sectionsImage secs
  simp only [List.length_append, hp, hc] at hn
  simp only [walkBound]
  omega

/-- Two steps for the header blocks, then the section loop. -/
theorem runWalk_image {n : U32} {s : State} {p c rest : Bytes} {secs : List (U16 × Bytes)}
    (hleft : bytesLeft (startDecode n s) = p ++ (c ++ (sectionsImage secs ++ rest))) (hp : p.length = 16)
    (hc : c.length = 112) (hacc : ∀ x ∈ secs, sectionAccepted x.1 x.2 = true)
    (hcats : withinCap s.config.catCap (imageNodes secs).length = true)
    (hdiags : withinCap s.config.diagCap (headerDiags p ++ imageDiags 128 secs).length = true) (k : Nat) :
    ∃ w, runWalk (secs.length + (k + 1) + 1 + 1) (startDecode n s) =
        .next (afterImage secs w (afterStdConfig c (afterPreamble p (startDecode n s)))) ∧
      w.phase = .terminal ∧ w.pos.toNat = 128 + (sectionsImage secs).length := by
  rw [← Nat.zero_add (imageNodes secs).length] at hcats
  rw [List.length_append] at hdiags
  have hpre : walkStep (startDecode n s) = .next (afterPreamble p (startDecode n s)) :=
    walkStep_of_preamble rfl rfl hleft hp
      (withinCap_of_le hdiags (by simp only [startDecode_diags, List.length_nil]; omega))
  have hleftPre : bytesLeft (afterPreamble p (startDecode n s)) = c ++ (sectionsImage secs ++ rest) :=
    bytesLeft_of_advance hleft rfl rfl (by rw [hp]; rfl)
  have hleftStd : bytesLeft (afterStdConfig c (afterPreamble p (startDecode n s))) = sectionsImage secs ++ rest :=
    bytesLeft_of_advance hleftPre rfl rfl (by rw [hc]; rfl)
  rw [runWalk_succ rfl hpre, runWalk_succ rfl (walkStep_of_stdConfig rfl rfl hleftPre hc)]
  exact runWalk_sectionsImage k rfl hleftStd hacc hcats hdiags

/-- Settles O39: the bound of the walk has room for all its steps, and the state behind them is read field by field. -/
theorem decodeLoadsEveryAcceptedImage : Obligations.DecodeLoadsEveryAcceptedImage := by
  intro n s p c secs rest hp hc hacc himage hn hcats hdiags
  have hlen : n.toNat = (p ++ (c ++ (sectionsImage secs ++ rest))).length := by
    rw [← himage, List.length_map, List.length_range]
  obtain ⟨k, hk⟩ := Nat.exists_eq_add_of_le (steps_le_walkBound hp hc hlen)
  obtain ⟨w, hrun, hphase, hpos⟩ :=
    runWalk_image ((bytesLeft_startDecode n s).trans himage) hp hc hacc hcats hdiags k
  refine ⟨afterImage secs w (afterStdConfig c (afterPreamble p (startDecode n s))), ?_, rfl, rfl, rfl, rfl, rfl, rfl,
    hphase, hpos, rfl, rfl, rfl, rfl, rfl, rfl, rfl⟩
  rw [exec_decode_of_le hn, show walkBound n = secs.length + (k + 1) + 1 + 1 by omega, hrun]

end Sys2Proof.Machine
end

section
/-! SUPPORT. How long an encoded payload is, codec by codec (45_writer.md R300, R310). -/

namespace Sys2Proof.Machine

/-- Padding rounds the length up to an even number (43_category_codecs.md R201, R221). -/
theorem padEven_length (b : Bytes) : (padEven b).length = b.length + b.length % 2 := by
  unfold padEven
  split
  next hodd => rw [List.length_append, List.length_singleton, hodd]
  next heven => omega

theorem encodeStrings_length (strs : List Bytes) : (encodeStrings strs).length =
    (1 + (strs.map (fun x => 1 + x.length)).sum) + (1 + (strs.map (fun x => 1 + x.length)).sum) % 2 := by
  have hstring : ∀ x : Bytes, (BitVec.ofNat 8 x.length :: x).length = 1 + x.length := fun x =>
    (List.length_cons).trans (Nat.add_comm _ _)
  rw [encodeStrings, padEven_length, List.length_cons, encodeStringList_eq_flatMap, List.length_flatMap, Nat.add_comm 1]
  simp only [hstring]

theorem encodeGeneral_length (g : General) : (encodeGeneral g).length = 32 := rfl

theorem encodeFmmu_length (us : List FmmuUsage) : (encodeFmmu us).length = us.length + us.length % 2 := by
  rw [encodeFmmu, padEven_length, List.length_map]

theorem encodeSyncM_length (es : List SyncEntry) : (encodeSyncM es).length = 8 * es.length := by
  induction es with
  | nil => rfl
  | cons e es ih =>
    have hentry : (encodeSyncEntry e).length = 8 := rfl
    rw [encodeSyncM, List.length_append, hentry, ih, List.length_cons]
    omega

theorem encodePdoEntries_length (es : List PdoEntry) : (encodePdoEntries es).length = 8 * es.length := by
  induction es with
  | nil => rfl
  | cons e es ih =>
    have hentry : (encodePdoEntry e).length = 8 := rfl
    rw [encodePdoEntries, List.length_append, hentry, ih, List.length_cons]
    omega

theorem encodePdo_length (d : Pdo) : (encodePdo d).length = 8 + 8 * d.entries.length := by
  rw [encodePdo, List.length_append, encodePdoEntries_length]
  rfl

theorem encodeDClock_length (d : DClock) : (encodeDClock d).length = 86 := rfl

theorem encodePayload_length_even (v : Payload) : (encodePayload v).length % 2 = 0 := by
  cases v with
  | strings strs => simp only [encodePayload, encodeStrings_length]; omega
  | datatypes => rfl
  | general g => simp only [encodePayload, encodeGeneral_length]
  | fmmu us => simp only [encodePayload, encodeFmmu_length]; omega
  | syncM es => simp only [encodePayload, encodeSyncM_length]; omega
  | pdo d => simp only [encodePayload, encodePdo_length]; omega
  | dclock d => simp only [encodePayload, encodeDClock_length]

/-- Settles O29, codec by codec. -/
theorem encodedPayloadLengths : Obligations.EncodedPayloadLengths :=
  ⟨encodeStrings_length, encodeGeneral_length, encodeFmmu_length, encodeSyncM_length, encodePdo_length,
    encodeDClock_length, encodePayload_length_even⟩

end Sys2Proof.Machine
end

section
/-! SUPPORT. What ENCODE has written at each of its steps, byte for byte, and the unit that cannot be written
(45_writer.md R291 to R303). -/

namespace Sys2Proof.Machine

/-! ## The bytes written -/

/-- ENCODE, started in `s` with the skip bits `o`, has written exactly the bytes `w` to OUT, at most `cap` of them, and
raised nothing. -/
structure WroteBytes (s : State) (cap : U32) (o : BitVec 3) (w : Bytes) (u : State) : Prop
    extends Written s w.length cap u where
  bytes : ∀ a, outByte u.out a = w[a]?
  cursor : u.e.wpos.toNat = w.length
  record : u.err = ErrRec.zero
  options : u.e.opts = o

section

variable {s u : State} {cap : U32} {o : BitVec 3} {w : Bytes}

theorem WroteBytes.wpos_eq (h : WroteBytes s cap o w u) : u.e.wpos = BitVec.ofNat 32 w.length := by
  rw [← h.cursor, BitVec.ofNat_toNat, BitVec.setWidth_eq]

theorem WroteBytes.setIdx (h : WroteBytes s cap o w u) (k : Nat) :
    WroteBytes s cap o w { u with e := { u.e with idx := k } } :=
  { h with keeps := h.keeps.trans {} }

/-- A unit that fits is written behind the others. -/
theorem WroteBytes.append (h : WroteBytes s cap o w u) {b : Bytes} (hfit : (w ++ b).length ≤ cap.toNat) :
    WroteBytes s cap o (w ++ b) (writeUnit b u) := by
  rw [List.length_append] at hfit
  have hcap := cap.isLt
  have hcursor := h.cursor
  refine ⟨?_, fun a => ?_, ?_, h.record, h.options⟩
  · rw [List.length_append]
    exact h.toWritten.writeUnit (by omega)
  · rw [outByte_writeUnit, hcursor]
    split
    next hin => rw [List.getElem?_append_right hin.1]
    next hout =>
      rw [h.bytes]
      obtain hlt | hge := Nat.lt_or_ge a w.length
      · rw [List.getElem?_append_left hlt]
      · rw [List.getElem?_eq_none hge, List.getElem?_eq_none (by rw [List.length_append]; omega)]
  · rw [writeUnit_wpos_toNat (by omega), hcursor, List.length_append]

/-- What ENCODE leaves when it raises a fatal error behind the bytes `w` (45_writer.md R305). -/
theorem WroteBytes.encodeFailed (h : WroteBytes s cap o w u) (c : Code) (ty : U16) (p : U32) :
    encodeFailed (codeByte c) ty p (BitVec.ofNat 32 w.length) s (raiseEncode c ty p u) :=
  ⟨rfl, rfl, rfl, h.wpos_eq, rfl, h.keeps.pre, h.keeps.cfg, h.keeps.cats, h.keeps.crc, h.keeps.diags, h.keeps.w,
    h.keeps.input, h.keeps.host, h.keeps.config⟩

end

theorem wroteBytes_startEncode (s : State) (cap : U32) (o : BitVec 3) : WroteBytes s cap o [] (startEncode o s) :=
  ⟨⟨{}, rfl, rfl, Nat.zero_le _, Nat.zero_le _⟩, fun _ => rfl, rfl, rfl, rfl⟩

/-! ## The header blocks -/

/-- The header blocks of the image. -/
def headerImage (s : State) : Bytes := encodePreamble s.pre ++ encodeStdConfig s.cfg

@[simp] theorem headerImage_length (s : State) : (headerImage s).length = 128 := by simp [headerImage]

theorem encodedImage_eq (skip : U16 → Bool) (s : State) :
    encodedImage skip s = (headerImage s ++ s.cats.flatMap (nodeImage skip)) ++ [0xFF, 0xFF] := by
  simp only [encodedImage, headerImage, List.append_assoc]

/-- The state of ENCODE behind the header blocks. -/
def afterHeaders (o : BitVec 3) (s : State) : State :=
  stdConfigStep (writeUnit (encodePreamble s.pre) (startEncode o s))

theorem wroteBytes_afterHeaders {s : State} {cap : U32} (hcap : eepromBytes s.cfg.eepromCode ≤ cap.toNat)
    (o : BitVec 3) : WroteBytes s cap o (headerImage s) (afterHeaders o s) := by
  have h128 : 128 ≤ cap.toNat := (Nat.le_add_left _ _).trans hcap
  have hpre := (wroteBytes_startEncode s cap o).append (b := encodePreamble s.pre) (by simp; omega)
  exact hpre.append (b := encodeStdConfig s.cfg) (by simpa using h128)

theorem encodeSteps_of_small {s : State} {cap : U32} (hcap : cap.toNat < eepromBytes s.cfg.eepromCode) (o : BitVec 3) :
    encodeSteps cap (startEncode o s) = .error (raiseEncode .bufferTooSmall 0 0 (startEncode o s)) := by
  have hstep : capacityStep cap (startEncode o s) = .error (raiseEncode .bufferTooSmall 0 0 (startEncode o s)) :=
    if_pos hcap
  simp only [encodeSteps, hstep, Except.bind]

section

variable {s : State} {cap : U32} (hcap : eepromBytes s.cfg.eepromCode ≤ cap.toNat)
include hcap

theorem encodeSteps_of_inconsistent (hsum : checksumConsistent s.pre = false) (o : BitVec 3) :
    encodeSteps cap (startEncode o s) = .error (raiseEncode .checksumInconsistent 0 14 (startEncode o s)) := by
  have hcapacity : capacityStep cap (startEncode o s) = .ok (startEncode o s) := if_neg (Nat.not_lt.mpr hcap)
  have hpre : preambleStep (startEncode o s) =
      .error (raiseEncode .checksumInconsistent 0 14 (startEncode o s)) := if_neg (beq_eq_false_iff_ne.mp hsum)
  simp only [encodeSteps, hcapacity, hpre, Except.bind]

theorem encodeSteps_of_consistent (hsum : checksumConsistent s.pre = true) (o : BitVec 3) :
    encodeSteps cap (startEncode o s) =
      (categorySteps cap 0 s.cats (afterHeaders o s)).bind (terminatorStep cap) := by
  have hcapacity : capacityStep cap (startEncode o s) = .ok (startEncode o s) := if_neg (Nat.not_lt.mpr hcap)
  have hpre : preambleStep (startEncode o s) = .ok (writeUnit (encodePreamble s.pre) (startEncode o s)) :=
    if_pos (beq_iff_eq.mp hsum)
  simp only [encodeSteps, hcapacity, hpre, Except.bind]
  rfl

end

/-! ## One node -/

theorem nodeEncodable_of_not_suppressed {skip : U16 → Bool} {c : Category} (henc : nodeEncodable skip c = true)
    (hskip : ¬ skip c.type = true) : c.type ≠ 20#16 ∧ (encodePayload c.payload).length ≤ Config.maxPayload := by
  simpa [nodeEncodable, hskip] using henc

/-- Why the node `c`, not suppressed, cannot be written at the offset `q`: the first test of 45_writer.md R299, R300,
R303 that it fails. -/
inductive NodeFails (cap : U32) (q : Nat) (c : Category) : Code → Prop
  | unimplemented (htype : c.type = 20#16) : NodeFails cap q c .unimplementedCategory
  | tooLarge (htype : c.type ≠ 20#16) (hlen : Config.maxPayload < (encodePayload c.payload).length) :
      NodeFails cap q c .sectionTooLarge
  | noRoom (htype : c.type ≠ 20#16) (hlen : (encodePayload c.payload).length ≤ Config.maxPayload)
      (hroom : cap.toNat < q + 4 + (encodePayload c.payload).length) : NodeFails cap q c .bufferTooSmall

/-- The unit `b` behind the bytes written ends above `cap`. -/
theorem WroteBytes.overflows_iff {s u : State} {cap : U32} {o : BitVec 3} {w : Bytes} (h : WroteBytes s cap o w u)
    (b : Bytes) (k : Nat) :
    overflows cap b { u with e := { u.e with idx := k } } = true ↔ cap.toNat < (w ++ b).length := by
  rw [overflows, decide_eq_true_eq, List.length_append, ← h.cursor]

section

variable {s u : State} {cap : U32} {o : BitVec 3} {w : Bytes} {c : Category} (h : WroteBytes s cap o w u)
include h

/-- A node that can be written, with room for it, leaves its bytes behind the others (45_writer.md R296, R301). -/
theorem WroteBytes.categoryStep_ok (henc : nodeEncodable (suppressed o) c = true)
    (hroom : (w ++ nodeImage (suppressed o) c).length ≤ cap.toNat) (k : Nat) :
    ∃ v, categoryStep cap k c u = .ok v ∧ WroteBytes s cap o (w ++ nodeImage (suppressed o) c) v := by
  obtain rfl := h.options
  by_cases hskip : suppressed u.e.opts c.type = true
  · rw [nodeImage, if_pos hskip, List.append_nil]
    exact ⟨_, if_pos hskip, h.setIdx k⟩
  · obtain ⟨htype, hlen⟩ := nodeEncodable_of_not_suppressed henc hskip
    rw [nodeImage, if_neg hskip] at hroom ⊢
    have hfits := mt (h.overflows_iff _ k).mp (Nat.not_lt.mpr hroom)
    refine ⟨_, ?_, (h.setIdx k).append hroom⟩
    rw [categoryStep, if_neg hskip, if_neg htype, if_neg (Nat.not_lt.mpr hlen), if_neg hfits]

/-- A node that cannot be written raises its error at the cursor (45_writer.md R299, R300, R303). -/
theorem WroteBytes.categoryStep_error (hskip : suppressed o c.type = false) {code : Code}
    (hfails : NodeFails cap w.length c code) (k : Nat) :
    ∃ v, categoryStep cap k c u = .error (raiseEncode code c.type (BitVec.ofNat 32 w.length) v) ∧
      WroteBytes s cap o w v := by
  obtain rfl := h.options
  have hwritten : ¬ suppressed u.e.opts c.type = true := Bool.eq_false_iff.mp hskip
  refine ⟨_, ?_, h.setIdx k⟩
  rw [categoryStep, if_neg hwritten, ← h.wpos_eq]
  cases hfails with
  | unimplemented htype => rw [if_pos htype, htype]; rfl
  | tooLarge htype hlen => rw [if_neg htype, if_pos hlen]
  | noRoom htype hlen hroom =>
    have hover := (h.overflows_iff (sectionBytes c.type (encodePayload c.payload)) k).mpr
      (by rw [List.length_append, sectionBytes_length]; omega)
    rw [if_neg htype, if_neg (Nat.not_lt.mpr hlen), if_pos hover]

end

/-! ## The nodes in list order -/

theorem categorySteps_append (cap : U32) (k : Nat) (front back : List Category) (u : State) :
    categorySteps cap k (front ++ back) u =
      (categorySteps cap k front u).bind (categorySteps cap (k + front.length) back) := by
  induction front generalizing k u with
  | nil => rfl
  | cons c cs ih =>
    rw [List.cons_append, categorySteps_cons, categorySteps_cons]
    cases categoryStep cap k c u with
    | error t => rfl
    | ok v =>
      simp only [Except.bind, ih, List.length_cons]
      rw [Nat.add_assoc, Nat.add_comm 1]

section

variable {s u : State} {cap : U32} {o : BitVec 3} {w : Bytes} (h : WroteBytes s cap o w u)
include h

theorem WroteBytes.categorySteps_ok {cs : List Category} (henc : ∀ c ∈ cs, nodeEncodable (suppressed o) c = true)
    (hroom : (w ++ cs.flatMap (nodeImage (suppressed o))).length ≤ cap.toNat) (k : Nat) :
    ∃ v, categorySteps cap k cs u = .ok v ∧ WroteBytes s cap o (w ++ cs.flatMap (nodeImage (suppressed o))) v := by
  induction cs generalizing k u w with
  | nil => exact ⟨u, rfl, by simpa using h⟩
  | cons c cs ih =>
    obtain ⟨hc, hcs⟩ := List.forall_mem_cons.mp henc
    rw [List.flatMap_cons, ← List.append_assoc] at hroom ⊢
    have hfirst : (w ++ nodeImage (suppressed o) c).length ≤ cap.toNat :=
      (List.length_append ▸ Nat.le_add_right _ _).trans hroom
    obtain ⟨v, hv, hwrote⟩ := h.categoryStep_ok hc hfirst k
    rw [categorySteps_cons, hv]
    exact ih hwrote hcs hroom (k + 1)

theorem WroteBytes.terminatorStep_ok (hroom : (w ++ [0xFF, 0xFF]).length ≤ cap.toNat) :
    terminatorStep cap u = .ok (writeUnit [0xFF, 0xFF] u) :=
  if_neg (mt (h.overflows_iff _ u.e.idx).mp (Nat.not_lt.mpr hroom))

theorem WroteBytes.terminatorStep_error (hroom : cap.toNat < (w ++ [0xFF, 0xFF]).length) :
    terminatorStep cap u = .error (raiseEncode .bufferTooSmall 0xFFFF (BitVec.ofNat 32 w.length) u) :=
  h.wpos_eq ▸ if_pos ((h.overflows_iff _ u.e.idx).mpr hroom)

end

end Sys2Proof.Machine
end

section
/-! SUPPORT. The ENCODE command: the image it writes, the error it reports, and the bound of its cursor (45_writer.md
R290, R303 to R306). -/

namespace Sys2Proof.Machine

/-! ## The command behind its operand tests -/

section

variable {s u : State} {cap opts : U32}

theorem execEncode_accepted (hcap : cap.toNat ≤ s.config.outCapMax.toNat) (hopts : opts.toNat < 8) :
    (decide (cap.toNat ≤ s.config.outCapMax.toNat) && fits opts 3) = true := by
  rw [Bool.and_eq_true, decide_eq_true_eq, fits_iff]
  exact ⟨hcap, hopts⟩

theorem exec_encode_of_ok (hcap : cap.toNat ≤ s.config.outCapMax.toNat) (hopts : opts.toNat < 8)
    (hsteps : encodeSteps cap (startEncode (opts.setWidth 3) s) = .ok u) :
    exec (.encode cap opts) s = .next (finishEncode u) := by
  simp only [exec, execEncode, execEncode_accepted hcap hopts, if_true, hsteps]

theorem exec_encode_of_error (hcap : cap.toNat ≤ s.config.outCapMax.toNat) (hopts : opts.toNat < 8)
    (hsteps : encodeSteps cap (startEncode (opts.setWidth 3) s) = .error u) :
    exec (.encode cap opts) s = .next u := by
  simp only [exec, execEncode, execEncode_accepted hcap hopts, if_true, hsteps]

theorem exec_encode_of_wide (h : s.config.outCapMax.toNat < cap.toNat ∨ 8 ≤ opts.toNat) :
    exec (.encode cap opts) s = .next (afterRefusal 0x31 s) := by
  have hrefused : ¬ (decide (cap.toNat ≤ s.config.outCapMax.toNat) && fits opts 3) = true := by
    rw [Bool.and_eq_true, decide_eq_true_eq, fits_iff]
    omega
  exact if_neg hrefused

/-- ENCODE is refused, or all its steps go through, or one of them raises. -/
theorem exec_encode_cases {t : State} (h : exec (.encode cap opts) s = .next t) :
    t = afterRefusal 0x31 s ∨
      (∃ u, encodeSteps cap (startEncode (opts.setWidth 3) s) = .ok u ∧ t = finishEncode u) ∨
      encodeSteps cap (startEncode (opts.setWidth 3) s) = .error t := by
  by_cases hwide : s.config.outCapMax.toNat < cap.toNat ∨ 8 ≤ opts.toNat
  · rw [exec_encode_of_wide hwide] at h
    cases h
    exact .inl rfl
  · rw [not_or, Nat.not_lt, Nat.not_le] at hwide
    obtain ⟨hcap, hopts⟩ := hwide
    cases hsteps : encodeSteps cap (startEncode (opts.setWidth 3) s) with
    | ok u =>
      rw [exec_encode_of_ok hcap hopts hsteps] at h
      cases h
      exact .inr (.inl ⟨u, rfl, rfl⟩)
    | error u =>
      rw [exec_encode_of_error hcap hopts hsteps] at h
      cases h
      exact .inr (.inr rfl)

/-- The fatal error that ended the steps behind the bytes `w` is what the command leaves (45_writer.md R305). -/
theorem WroteBytes.exec_encode_failed {w : Bytes} (h : WroteBytes s cap (opts.setWidth 3) w u)
    (hcap : cap.toNat ≤ s.config.outCapMax.toNat) (hopts : opts.toNat < 8) {c : Code} {ty : U16} {p : U32}
    (hsteps : encodeSteps cap (startEncode (opts.setWidth 3) s) = .error (raiseEncode c ty p u)) :
    ∃ t, exec (.encode cap opts) s = .next t ∧
      Machine.encodeFailed (codeByte c) ty p (BitVec.ofNat 32 w.length) s t :=
  ⟨_, exec_encode_of_error hcap hopts hsteps, h.encodeFailed c ty p⟩

end

/-- The skip bits suppress the types that the statements spell out (45_writer.md R295, R296). -/
theorem eq_suppressed {opts : U32} {skip : U16 → Bool}
    (h : ∀ t : U16, skip t = true ↔ t.toNat = 50 ∧ opts.getLsbD 0 = true ∨ t.toNat = 51 ∧ opts.getLsbD 1 = true ∨
      t.toNat = 60 ∧ opts.getLsbD 2 = true) : skip = suppressed (opts.setWidth 3) := by
  funext t
  rw [Bool.eq_iff_iff, h]
  simp [suppressed, skipTxPdo, skipRxPdo, skipDc, BitVec.toNat_eq, or_assoc]

/-! ## An ENCODE that ends ok -/

/-- With every test met, the steps of ENCODE write the image and raise nothing. -/
theorem encodeSteps_of_encodable {s : State} {cap : U32} {o : BitVec 3}
    (heeprom : eepromBytes s.cfg.eepromCode ≤ cap.toNat) (hsum : checksumConsistent s.pre = true)
    (henc : ∀ c ∈ s.cats, nodeEncodable (suppressed o) c = true)
    (hroom : (encodedImage (suppressed o) s).length ≤ cap.toNat) :
    ∃ u, encodeSteps cap (startEncode o s) = .ok u ∧ WroteBytes s cap o (encodedImage (suppressed o) s) u := by
  rw [encodedImage_eq] at hroom ⊢
  have hnodes := (List.length_append ▸ Nat.le_add_right _ _).trans hroom
  obtain ⟨v, hv, hwrote⟩ := (wroteBytes_afterHeaders heeprom o).categorySteps_ok henc hnodes 0
  refine ⟨_, ?_, hwrote.append hroom⟩
  rw [encodeSteps_of_consistent heeprom hsum, hv]
  exact hwrote.terminatorStep_ok hroom

/-- Settles O43: the steps write the image, and the command reports its length. -/
theorem encodeWritesTheImage : Obligations.EncodeWritesTheImage := by
  refine ⟨fun _ _ _ => rfl, fun cap opts s skip hskip hcap hopts heeprom hsum henc hroom => ?_⟩
  obtain rfl := eq_suppressed hskip
  obtain ⟨u, hsteps, hwrote⟩ := encodeSteps_of_encodable heeprom hsum henc hroom
  have hkeeps := hwrote.keeps
  exact ⟨finishEncode u, exec_encode_of_ok hcap hopts hsteps, rfl, rfl, hwrote.cursor, hwrote.bytes, rfl, hwrote.record,
    rfl, hkeeps.pre, hkeeps.cfg, hkeeps.cats, hkeeps.crc, hkeeps.diags, hkeeps.w, hkeeps.input, hkeeps.host,
    hkeeps.config⟩

/-! ## The errors in program order -/

section

variable {s : State} {cap : U32} {o : BitVec 3} (heeprom : eepromBytes s.cfg.eepromCode ≤ cap.toNat)
  (hsum : checksumConsistent s.pre = true)
include heeprom hsum

/-- The nodes in front of the first that cannot be written are written, and then its error is raised. -/
theorem encodeSteps_of_nodeFails {front back : List Category} {c : Category} (hcats : s.cats = front ++ c :: back)
    (hfront : ∀ d ∈ front, nodeEncodable (suppressed o) d = true)
    (hroom : (headerImage s ++ front.flatMap (nodeImage (suppressed o))).length ≤ cap.toNat)
    (hskip : suppressed o c.type = false) {code : Code}
    (hfails : NodeFails cap (headerImage s ++ front.flatMap (nodeImage (suppressed o))).length c code) :
    ∃ v, encodeSteps cap (startEncode o s) = .error (raiseEncode code c.type
        (BitVec.ofNat 32 (headerImage s ++ front.flatMap (nodeImage (suppressed o))).length) v) ∧
      WroteBytes s cap o (headerImage s ++ front.flatMap (nodeImage (suppressed o))) v := by
  obtain ⟨u, hu, hwrote⟩ := (wroteBytes_afterHeaders heeprom o).categorySteps_ok hfront hroom 0
  obtain ⟨v, hv, hwroteNode⟩ := hwrote.categoryStep_error hskip hfails (0 + front.length)
  refine ⟨v, ?_, hwroteNode⟩
  simp only [encodeSteps_of_consistent heeprom hsum, hcats, categorySteps_append, hu, categorySteps_cons, Except.bind,
    hv]

/-- All nodes are written, and there is no room for the terminator behind them. -/
theorem encodeSteps_of_no_terminator (henc : ∀ c ∈ s.cats, nodeEncodable (suppressed o) c = true)
    (hroom : (headerImage s ++ s.cats.flatMap (nodeImage (suppressed o))).length ≤ cap.toNat)
    (hover : cap.toNat < (encodedImage (suppressed o) s).length) :
    ∃ v, encodeSteps cap (startEncode o s) = .error (raiseEncode .bufferTooSmall 0xFFFF
        (BitVec.ofNat 32 (headerImage s ++ s.cats.flatMap (nodeImage (suppressed o))).length) v) ∧
      WroteBytes s cap o (headerImage s ++ s.cats.flatMap (nodeImage (suppressed o))) v := by
  obtain ⟨v, hv, hwrote⟩ := (wroteBytes_afterHeaders heeprom o).categorySteps_ok henc hroom 0
  refine ⟨v, ?_, hwrote⟩
  rw [encodeSteps_of_consistent heeprom hsum, hv]
  exact hwrote.terminatorStep_error (encodedImage_eq _ s ▸ hover)

end

/-- The three errors of a node, with their numbers. -/
theorem exists_nodeFails {cap : U32} {q : Nat} {c : Category} {code : Byte}
    (h : c.type = 20 ∧ code = 0x12 ∨
      c.type ≠ 20 ∧ 131070 < (encodePayload c.payload).length ∧ code = 0x23 ∨
      c.type ≠ 20 ∧ (encodePayload c.payload).length ≤ 131070 ∧
        cap.toNat < q + 4 + (encodePayload c.payload).length ∧ code = 0x22) :
    ∃ e, NodeFails cap q c e ∧ codeByte e = code := by
  obtain ⟨htype, rfl⟩ | ⟨htype, hlen, rfl⟩ | ⟨htype, hlen, hroom, rfl⟩ := h
  · exact ⟨_, .unimplemented htype, rfl⟩
  · exact ⟨_, .tooLarge htype hlen, rfl⟩
  · exact ⟨_, .noRoom htype hlen hroom, rfl⟩

/-- Settles O44, stage by stage. -/
theorem encodeErrorsInProgramOrder : Obligations.EncodeErrorsInProgramOrder := by
  intro cap opts s skip hskip
  obtain rfl := eq_suppressed hskip
  refine ⟨exec_encode_of_wide, fun hcap hopts => ⟨fun hsmall => ?_, fun heeprom => ⟨fun hsum => ?_, fun hsum => ?_⟩⟩⟩
  · exact (wroteBytes_startEncode s cap _).exec_encode_failed hcap hopts (encodeSteps_of_small hsmall _)
  · exact (wroteBytes_startEncode s cap _).exec_encode_failed hcap hopts (encodeSteps_of_inconsistent heeprom hsum _)
  · constructor
    · intro front back c q hcats hfront hq hroom hwritten code hcode
      have hlen : (headerImage s ++ front.flatMap (nodeImage (suppressed (opts.setWidth 3)))).length = q := by
        rw [List.length_append, headerImage_length, hq]
      obtain ⟨e, hfails, rfl⟩ := exists_nodeFails hcode
      obtain ⟨v, hsteps, hwrote⟩ :=
        encodeSteps_of_nodeFails heeprom hsum hcats hfront (hlen ▸ hroom) hwritten (hlen ▸ hfails)
      exact hlen ▸ hwrote.exec_encode_failed hcap hopts hsteps
    · intro henc hroom hover
      have hlen : (headerImage s ++ s.cats.flatMap (nodeImage (suppressed (opts.setWidth 3)))).length =
          (encodedImage (suppressed (opts.setWidth 3)) s).length - 2 := by
        rw [encodedImage_eq, List.length_append (bs := [0xFF, 0xFF])]
        rfl
      obtain ⟨v, hsteps, hwrote⟩ := encodeSteps_of_no_terminator heeprom hsum henc (hlen ▸ hroom) hover
      exact hlen ▸ hwrote.exec_encode_failed hcap hopts hsteps

/-! ## Every ENCODE -/

/-- How a part of ENCODE, started in `s`, ends: with some bytes written and no others, going on or raising an error. -/
inductive WriterEnds (s : State) (cap : U32) (o : BitVec 3) : Except State State → Prop
  | ok {w : Bytes} {u : State} (h : WroteBytes s cap o w u) : WriterEnds s cap o (.ok u)
  | raised {c : Code} {ty : U16} {p : U32} {w : Bytes} {u : State} (h : WroteBytes s cap o w u) :
      WriterEnds s cap o (.error (raiseEncode c ty p u))

section

variable {s u : State} {cap : U32} {o : BitVec 3} {w : Bytes}

theorem WriterEnds.bind {x : Except State State} {f : State → Except State State} (hx : WriterEnds s cap o x)
    (hf : ∀ w u, WroteBytes s cap o w u → WriterEnds s cap o (f u)) : WriterEnds s cap o (x.bind f) := by
  cases hx with
  | ok h => exact hf _ _ h
  | raised h => exact .raised h

theorem WroteBytes.categoryStep_ends (h : WroteBytes s cap o w u) (k : Nat) (c : Category) :
    WriterEnds s cap o (categoryStep cap k c u) := by
  obtain ⟨v, rfl, hcases⟩ := categoryStep_cases cap k c u
  obtain ⟨-, e⟩ | ⟨-, ⟨-, e⟩ | ⟨-, -, e⟩ | ⟨-, -, -, e⟩ | ⟨-, -, hfit, e⟩⟩ := hcases
  · exact e ▸ .ok (h.setIdx k)
  · exact e ▸ .raised (h.setIdx k)
  · exact e ▸ .raised (h.setIdx k)
  · exact e ▸ .raised (h.setIdx k)
  · exact e ▸ .ok ((h.setIdx k).append (by rwa [List.length_append, ← h.cursor]))

theorem WroteBytes.categorySteps_ends (h : WroteBytes s cap o w u) (k : Nat) (cs : List Category) :
    WriterEnds s cap o (categorySteps cap k cs u) := by
  induction cs generalizing k u w with
  | nil => exact .ok h
  | cons c cs ih =>
    rw [categorySteps_cons]
    exact (h.categoryStep_ends k c).bind fun _ _ hv => ih hv (k + 1)

theorem WroteBytes.terminatorStep_ends (h : WroteBytes s cap o w u) : WriterEnds s cap o (terminatorStep cap u) := by
  obtain hfit | hover := le_or_gt (w ++ [0xFF, 0xFF]).length cap.toNat
  · exact h.terminatorStep_ok hfit ▸ .ok (h.append hfit)
  · exact h.terminatorStep_error hover ▸ .raised h

end

theorem encodeSteps_ends (s : State) (cap : U32) (o : BitVec 3) :
    WriterEnds s cap o (encodeSteps cap (startEncode o s)) := by
  obtain hsmall | heeprom := Nat.lt_or_ge cap.toNat (eepromBytes s.cfg.eepromCode)
  · exact encodeSteps_of_small hsmall o ▸ .raised (wroteBytes_startEncode s cap o)
  · cases hsum : checksumConsistent s.pre with
    | false => exact encodeSteps_of_inconsistent heeprom hsum o ▸ .raised (wroteBytes_startEncode s cap o)
    | true =>
      rw [encodeSteps_of_consistent heeprom hsum]
      exact ((wroteBytes_afterHeaders heeprom o).categorySteps_ends 0 s.cats).bind fun _ _ h => h.terminatorStep_ends

/-- Settles O45: at every end of ENCODE but the refusal the bytes below the cursor, and no others, are written. -/
theorem encodeStaysBelowTheCapacity : Obligations.EncodeStaysBelowTheCapacity := by
  intro cap opts s t h
  have hends := encodeSteps_ends s cap (opts.setWidth 3)
  obtain rfl | ⟨u, hsteps, rfl⟩ | hsteps := exec_encode_cases h
  · exact ⟨fun hok => absurd hok (by decide : (0x31 : Byte) ≠ 0), fun hne => absurd rfl hne⟩
  · rw [hsteps] at hends
    cases hends with
    | ok hwrote =>
      refine ⟨fun _ => ⟨rfl, hwrote.below, fun a => ?_⟩, fun _ => hwrote.below⟩
      rw [finishEncode_out, hwrote.bytes, finishEncode_outLen, hwrote.cursor, isSome_getElem?]
  · rw [hsteps] at hends
    cases hends with
    | raised hwrote => exact ⟨fun hok => absurd hok (codeByte_ne_zero _), fun _ => hwrote.below⟩

end Sys2Proof.Machine
end

section
/-! SUPPORT. Byte-exact round trip: ENCODE behind a DECODE of a well-formed image (45_writer.md R312, R313). -/

namespace Sys2Proof.Machine

/-! ## A field and the bytes behind it -/

theorem le16_rd16_append {b : Bytes} {o e : Nat} (he : e = o + 2) (h : e ≤ b.length) :
    le16 (rd16 b o) ++ b.drop e = b.drop o := by
  subst he
  rw [List.drop_eq_getElem_cons (by omega : o < b.length), List.drop_eq_getElem_cons (by omega : o + 1 < b.length),
    rd16, le16_u16of, rd8_of_lt (by omega), rd8_of_lt (by omega)]
  rfl

theorem le32_u32of (b0 b1 b2 b3 : Byte) : le32 (u32of b0 b1 b2 b3) = [b0, b1, b2, b3] := by
  simp only [le32, u32of, BitVec.extractLsb'_append_eq_ite]
  simp

theorem le32_rd32_append {b : Bytes} {o e : Nat} (he : e = o + 4) (h : e ≤ b.length) :
    le32 (rd32 b o) ++ b.drop e = b.drop o := by
  subst he
  rw [List.drop_eq_getElem_cons (by omega : o < b.length), List.drop_eq_getElem_cons (by omega : o + 1 < b.length),
    List.drop_eq_getElem_cons (by omega : o + 1 + 1 < b.length),
    List.drop_eq_getElem_cons (by omega : o + 1 + 1 + 1 < b.length),
    rd32, le32_u32of, rd8_of_lt (by omega), rd8_of_lt (by omega), rd8_of_lt (by omega), rd8_of_lt (by omega)]
  rfl

theorem zeros_append_drop {b : Bytes} {o n : Nat} (h : (b.drop o).take n = zeros n) :
    zeros n ++ b.drop (o + n) = b.drop o := by
  rw [← h, ← List.drop_drop, List.take_append_drop]

/-! ## The header blocks -/

theorem canonicalPreamble_iff {p : Bytes} : canonicalPreamble p = true ↔
    p.length = 16 ∧ crcFold Config.crcSeed p = 0 ∧ (p.drop 10).take 4 = zeros 4 ∧ p.drop 15 = zeros 1 := by
  simp [canonicalPreamble, Config.preBytes, and_assoc]

theorem canonicalStdConfig_iff {c : Bytes} : canonicalStdConfig c = true ↔
    c.length = 112 ∧ (c.drop 16).take 8 = zeros 8 ∧ (c.drop 42).take 66 = zeros 66 := by
  simp [canonicalStdConfig, Config.cfgBytes, and_assoc]

/-- ENCODE writes the preamble that DECODE loaded, its reserved bytes being 0 (41_header_codecs.md R145). -/
theorem encodePreamble_loadPreamble {p : Bytes} (h : canonicalPreamble p = true) (cv : CsumValid) :
    encodePreamble (loadPreamble p cv) = p := by
  obtain ⟨hlen, -, hreserved, hlast⟩ := canonicalPreamble_iff.mp h
  have hword : [rd8 p 14, 0] = p.drop 14 := by
    rw [List.drop_eq_getElem_cons (by omega : 14 < p.length), hlast, rd8_of_lt (by omega)]
    rfl
  simp only [encodePreamble, preambleHead, loadPreamble, List.append_assoc, hword]
  rw [zeros_append_drop hreserved]
  simp (disch := omega) only [le16_rd16_append]
  exact List.drop_zero

/-- ENCODE writes the standard config that DECODE loaded, both reserved runs being 0 (41_header_codecs.md R152). -/
theorem encodeStdConfig_loadStdConfig {c : Bytes} (h : canonicalStdConfig c = true) :
    encodeStdConfig (loadStdConfig c) = c := by
  obtain ⟨hlen, hfirst, hsecond⟩ := canonicalStdConfig_iff.mp h
  have hversion : le16 (rd16 c 110) = c.drop 110 := by
    have hend := le16_rd16_append (b := c) (o := 110) rfl (by omega)
    rwa [List.drop_of_length_le (by omega), List.append_nil] at hend
  simp only [encodeStdConfig, loadStdConfig, hversion]
  simp (disch := omega) only [le16_rd16_append, le32_rd32_append, zeros_append_drop hfirst, zeros_append_drop hsecond]
  exact List.drop_zero

/-! ## The sections -/

/-- A section of a well-formed image: a payload with a size in words, of a type with a codec, which reproduces it
(45_writer.md R312). -/
def CanonicalSection (x : U16 × Bytes) : Prop :=
  payloadWf x.2 = true ∧ x.1 ∈ codecTypes ∧ canonicalPayload x.1 x.2 = true

theorem exists_of_canonicalPayload {t : U16} {p : Bytes} (h : canonicalPayload t p = true) :
    ∃ v, decodePayload t p = some v ∧ encodePayload v = p := by
  unfold canonicalPayload at h
  split at h
  next v hv => exact ⟨v, hv, beq_iff_eq.mp h⟩
  next => cases h

theorem CanonicalSection.accepted {x : U16 × Bytes} (h : CanonicalSection x) : sectionAccepted x.1 x.2 = true := by
  obtain ⟨hwf, htype, hcanonical⟩ := h
  obtain ⟨v, hv, -⟩ := exists_of_canonicalPayload hcanonical
  refine sectionAccepted_iff.mpr ⟨hwf, ?_, fun _ => ⟨v, hv⟩⟩
  intro hend
  exact absurd (hend ▸ htype) (by decide)

theorem CanonicalSection.sectionDiags_eq_nil {x : U16 × Bytes} (h : CanonicalSection x) (q : Nat) :
    sectionDiags x.1 q = [] := by
  obtain ⟨-, htype, -⟩ := h
  exact if_pos (List.contains_iff_mem.mpr htype)

/-- The one node of a section of a well-formed image, which encodes to the section's payload. -/
theorem CanonicalSection.exists_sectionNodes {x : U16 × Bytes} (h : CanonicalSection x) :
    ∃ v, sectionNodes x.1 x.2 = [{ type := x.1, sizeBytes := x.2.length, payload := v }] ∧ encodePayload v = x.2 := by
  obtain ⟨-, -, hcanonical⟩ := h
  obtain ⟨v, hv, hencode⟩ := exists_of_canonicalPayload hcanonical
  exact ⟨v, by rw [sectionNodes, hv], hencode⟩

theorem payloadWf_length_le {p : Bytes} (h : payloadWf p = true) : p.length ≤ Config.maxPayload := by
  rw [payloadWf, Bool.and_eq_true, decide_eq_true_eq] at h
  exact h.2

theorem CanonicalSection.encodable {x : U16 × Bytes} (h : CanonicalSection x) (skip : U16 → Bool) :
    ∀ c ∈ sectionNodes x.1 x.2, nodeEncodable skip c = true := by
  obtain ⟨v, hnodes, hencode⟩ := h.exists_sectionNodes
  obtain ⟨hwf, htype, -⟩ := h
  have hne : x.1 ≠ 20#16 := by
    intro hdatatypes
    exact absurd (hdatatypes ▸ htype) (by decide)
  rw [hnodes, List.forall_mem_singleton]
  simp [nodeEncodable, hencode, hne, payloadWf_length_le hwf]

section

variable {secs : List (U16 × Bytes)} (h : ∀ x ∈ secs, CanonicalSection x)
include h

theorem imageDiags_of_canonical (q : Nat) : imageDiags q secs = [] := by
  induction secs generalizing q with
  | nil => rfl
  | cons x xs ih =>
    obtain ⟨hx, hxs⟩ := List.forall_mem_cons.mp h
    rw [imageDiags, hx.sectionDiags_eq_nil, ih hxs, List.nil_append]

theorem imageNodes_length_of_canonical : (imageNodes secs).length = secs.length := by
  induction secs with
  | nil => rfl
  | cons x xs ih =>
    obtain ⟨hx, hxs⟩ := List.forall_mem_cons.mp h
    obtain ⟨v, hnodes, -⟩ := hx.exists_sectionNodes
    have htail : (xs.flatMap (fun x => sectionNodes x.1 x.2)).length = xs.length := ih hxs
    rw [imageNodes, List.flatMap_cons, List.length_append, htail, hnodes, List.length_singleton, List.length_cons,
      Nat.add_comm]

theorem nodeEncodable_of_canonical (skip : U16 → Bool) : ∀ c ∈ imageNodes secs, nodeEncodable skip c = true := by
  intro c hc
  obtain ⟨x, hx, hc⟩ := List.mem_flatMap.mp hc
  exact (h x hx).encodable skip c hc

/-- What ENCODE writes for the nodes of a well-formed image: its sections, less those of suppressed types
(45_writer.md R296, R313). -/
theorem imageNodes_image (skip : U16 → Bool) : (imageNodes secs).flatMap (nodeImage skip) =
    (secs.filter (fun x => !(skip x.1))).flatMap (fun x => sectionBytes x.1 x.2) := by
  induction secs with
  | nil => rfl
  | cons x xs ih =>
    obtain ⟨hx, hxs⟩ := List.forall_mem_cons.mp h
    obtain ⟨v, hnodes, hencode⟩ := hx.exists_sectionNodes
    rw [imageNodes, List.flatMap_cons, List.flatMap_append, ← imageNodes, ih hxs, hnodes, List.flatMap_singleton]
    cases hskip : skip x.1 with
    | true => simp [nodeImage, hskip]
    | false => simp [nodeImage, hskip, hencode]

end

/-! ## The image -/

/-- ENCODE's image of what a well-formed image loads is the image less its suppressed sections (45_writer.md R313). -/
theorem encodedImage_of_canonical {t : State} {p c : Bytes} {secs : List (U16 × Bytes)} {cv : CsumValid}
    (hp : canonicalPreamble p = true) (hc : canonicalStdConfig c = true) (hsecs : ∀ x ∈ secs, CanonicalSection x)
    (hpre : t.pre = loadPreamble p cv) (hcfg : t.cfg = loadStdConfig c) (hcats : t.cats = imageNodes secs)
    (skip : U16 → Bool) :
    encodedImage skip t = p ++ (c ++ sectionsImage (secs.filter (fun x => !(skip x.1)))) := by
  rw [encodedImage, hpre, hcfg, hcats, encodePreamble_loadPreamble hp, encodeStdConfig_loadStdConfig hc,
    imageNodes_image hsecs, sectionsImage]

/-- DECODE of a well-formed image ends ok behind its terminator, without a diagnostic (45_writer.md R312). -/
theorem exec_decode_of_canonical {s : State} {n : U32} {p c : Bytes} {secs : List (U16 × Bytes)}
    (hp : canonicalPreamble p = true) (hc : canonicalStdConfig c = true) (hsecs : ∀ x ∈ secs, CanonicalSection x)
    (himage : (List.range n.toNat).map (fun k => inByte s.input k) = p ++ (c ++ sectionsImage secs))
    (hn : n.toNat ≤ s.config.inCap.toNat) (hroom : withinCap s.config.catCap secs.length = true) :
    ∃ t, exec (.decode n) s = .next t ∧ t.status = 0 ∧ t.w.pos = n ∧ t.diags = [] ∧
      t.pre = loadPreamble p .valid ∧ t.cfg = loadStdConfig c ∧ t.cats = imageNodes secs ∧ t.config = s.config := by
  obtain ⟨hplen, hresidue, -, -⟩ := canonicalPreamble_iff.mp hp
  obtain ⟨hclen, -, -⟩ := canonicalStdConfig_iff.mp hc
  have hdiags : headerDiags p ++ imageDiags 128 secs = [] := by
    rw [headerDiags, if_pos hresidue, imageDiags_of_canonical hsecs, List.append_nil]
  have hdiagRoom : withinCap s.config.diagCap (headerDiags p ++ imageDiags 128 secs).length = true := by
    rw [hdiags]
    exact withinCap_zero _
  obtain ⟨t, hexec, hstatus, -, hpre, hcfg, hcats, hdiag, -, hpos, -, -, -, -, -, -, hconfig⟩ :=
    decodeLoadsEveryAcceptedImage n s p c secs [] hplen hclen (fun x hx => (hsecs x hx).accepted)
      (by rwa [List.append_nil]) hn (by rwa [imageNodes_length_of_canonical hsecs]) hdiagRoom
  have hlen : n.toNat = (p ++ (c ++ sectionsImage secs)).length := by
    rw [← himage, List.length_map, List.length_range]
  refine ⟨t, hexec, hstatus, BitVec.eq_of_toNat_eq ?_, hdiag.trans hdiags, ?_, hcfg, hcats, hconfig⟩
  · rw [hpos, hlen, List.length_append, List.length_append, hplen, hclen]
    omega
  · exact hpre.trans (congrArg (loadPreamble p) (if_pos hresidue))

/-- Settles O47: each block that DECODE loads is encoded to its own bytes, so ENCODE writes the image section by
section. -/
theorem decodeThenEncodeRoundTrip : Obligations.DecodeThenEncodeRoundTrip := by
  intro s n cap opts p c secs skip img hskip hp hc hsecs himage hn hroom hopts himg hfits heeprom hcap
  obtain ⟨t, hexec, hstatus, hpos, hdiags, hpre, hcfg, hcats, hconfig⟩ :=
    exec_decode_of_canonical hp hc hsecs himage hn hroom
  have hencoded : encodedImage skip t = img :=
    (encodedImage_of_canonical hp hc hsecs hpre hcfg hcats skip).trans himg.symm
  have hsum : checksumConsistent t.pre = true := by
    obtain ⟨-, hresidue, -, -⟩ := canonicalPreamble_iff.mp hp
    rw [checksumConsistent, hpre, encodePreamble_loadPreamble hp, beq_iff_eq, hresidue]
  obtain ⟨-, hencode⟩ := encodeWritesTheImage
  obtain ⟨u, hexecEncode, hstatusEncode, -, hlen, hbytes, -⟩ := hencode cap opts t skip hskip (hconfig ▸ hcap) hopts
    (hcfg ▸ heeprom) hsum (hcats ▸ nodeEncodable_of_canonical hsecs skip) (hencoded ▸ hfits)
  rw [hencoded] at hlen hbytes
  exact ⟨t, u, hexec, hstatus, hpos, hdiags, hexecEncode, hstatusEncode, hlen, hbytes⟩

end Sys2Proof.Machine
end

section
/-! SUPPORT. Command codes outside the table (30_encoding.md R100, R101; 60_exceptions.md R338). -/

namespace Sys2Proof.Machine

/-- The codes of the command table (30_encoding.md R100). -/
def commandCodes : List Nat := [0x01, 0x02, 0x03, 0x04, 0x05, 0x10, 0x11, 0x12, 0x20, 0x21, 0x22, 0x23, 0x24, 0x25,
  0x28, 0x29, 0x2A, 0x30, 0x31, 0x32]

/-- The decoder's last row is reached exactly by the codes outside the table. -/
theorem decodeCommand_error_iff (c : Command) :
    decodeCommand c = .error .badCommand ↔ c.code.toNat ∉ commandCodes := by
  unfold decodeCommand
  split
  iterate 20
    next hcode => simp [commandCodes, hcode]
  next => simp_all [commandCodes]

/-- A command that cannot be decoded is taken off the events and refused (30_encoding.md R101). -/
theorem step_of_command_error {s : State} {c : Command} {rest : List HostEvent} (ha : accepting s = true)
    (hh : s.host = .command c :: rest) (hd : decode (.command c) = .error .badCommand) :
    step s = .next (refuse .badCommand { s with host := rest }) := by
  simp only [step, if_neg (not_walking_of_accepting ha), hh, hd]
  rfl

/-- Settles O4: the decoder's last row, and the refusal it leads to. -/
theorem unknownCommandCodeIsRefused : Obligations.UnknownCommandCodeIsRefused := by
  intro s c rest ha hh hcode
  exact step_of_command_error ha hh ((decodeCommand_error_iff c).mpr hcode)

end Sys2Proof.Machine
end

section
/-! SUPPORT. The items of an image that end DECODE: a malformed section, and a list at its capacity
(44_walker.md R270; 60_exceptions.md R327, R328, R331). -/

namespace Sys2Proof.Machine

/-! ## The sections with a codec -/

/-- `i` is the section of type `t` with the payload `p`, and the codec of `t` answers `answer` (44_walker.md R270). -/
def CodecAnswers (p : Bytes) (answer : Option Payload) (i : Instr) (t : U16) : Prop :=
  decodeStrings p = answer ∧ i = .strings p ∧ t = 10 ∨ decodeGeneral p = answer ∧ i = .general p ∧ t = 30 ∨
    decodeFmmu p = answer ∧ i = .fmmu p ∧ t = 40 ∨ decodeSyncM p = answer ∧ i = .syncm p ∧ t = 41 ∨
    decodePdo .tx p = answer ∧ i = .txpdo p ∧ t = 50 ∨ decodePdo .rx p = answer ∧ i = .rxpdo p ∧ t = 51 ∨
    decodeDClock p = answer ∧ i = .dclock p ∧ t = 60

/-- The seven arms with a codec are one operation on the codec's answer. -/
theorem CodecAnswers.exec_eq {p : Bytes} {answer : Option Payload} {i : Instr} {t : U16} (h : CodecAnswers p answer i t)
    (s : State) : exec i s = .next (storeSection t answer p s) := by
  obtain ⟨rfl, rfl, rfl⟩ | ⟨rfl, rfl, rfl⟩ | ⟨rfl, rfl, rfl⟩ | ⟨rfl, rfl, rfl⟩ | ⟨rfl, rfl, rfl⟩ | ⟨rfl, rfl, rfl⟩ |
    ⟨rfl, rfl, rfl⟩ := h <;> rfl

theorem storeSection_none (t : U16) (p : Bytes) (s : State) : storeSection t none p s =
    afterDecodeError 0x04 t s.w.pos (atSection t (BitVec.ofNat 16 (p.length / 2)) s) := rfl

/-- Settles O32: the codec's answer `none` raises MalformedCategory in each of the seven arms. -/
theorem malformedSectionsAreFatal : Obligations.MalformedSectionsAreFatal := by
  intro p s i t hcodec
  rw [CodecAnswers.exec_eq hcodec, storeSection_none]

/-! ## A list at its capacity -/

theorem storeSection_of_full {s : State} (h : s.config.catCap = some s.cats.length) (t : U16) (v : Payload)
    (p : Bytes) : storeSection t (some v) p s =
      afterDecodeError 0x05 t s.w.pos (atSection t (BitVec.ofNat 16 (p.length / 2)) s) := by
  obtain ⟨hnone, -⟩ | ⟨-, -, -, hstore⟩ | ⟨-, -, hroom, -⟩ := storeSection_cases t (some v) p s
  · cases hnone
  · exact hstore
  · exact absurd h hroom

theorem skipSection_of_full {s : State} (h : s.config.diagCap = some s.diags.length) (c : Code) (t : U16) (p : Bytes) :
    skipSection c t p s = afterDecodeError 0x05 t s.w.pos (atSection t (BitVec.ofNat 16 (p.length / 2)) s) := by
  obtain ⟨-, hskip⟩ | ⟨hroom, -⟩ := skipSection_cases c t p s
  · exact hskip
  · exact absurd h hroom

/-- A full DIAG has no room for the diagnostic of an invalid preamble, and what the preamble loaded is lost. -/
theorem exec_preamble_of_full {s : State} {p : Bytes} (hresidue : crcFold Config.crcSeed p ≠ 0)
    (h : s.config.diagCap = some s.diags.length) : exec (.preamble p) s = .next (afterDecodeError 0x05 0 0 s) := by
  rw [exec_preamble_invalid hresidue]
  obtain ⟨-, hdiag⟩ | ⟨hroom, -⟩ := withDiag_cases .checksumInvalid 0 0 enterStdConfig
    { s with pre := loadPreamble p .invalid }
  · rw [hdiag]
    rfl
  · exact absurd h hroom

/-! ## Without capacities -/

/-- The instance bounds neither CATS nor DIAG (00_scope.md R6). -/
structure Unbounded (g : Config) : Prop where
  cats : g.catCap = none
  diags : g.diagCap = none

/-- DECODE is under way, or it ended with a STATUS other than ResourceExhausted. -/
def NotExhausted (s : State) : Prop := walking s.w.phase = true ∨ s.status ≠ 0x05

/-- What a walk keeps in an instance without capacities. -/
structure WalksUnbounded (s : State) : Prop where
  free : Unbounded s.config
  notExhausted : NotExhausted s

theorem NotExhausted.raised {c : Code} (hc : codeByte c ≠ 0x05) (t : U16) (p : U32) (s : State) :
    NotExhausted (raiseDecode c t p s) := .inr hc

theorem fetchFailed_notExhausted (e : DecodeError) (s : State) : NotExhausted (fetchFailed e s) := by
  cases e with
  | badCommand => exact .inr (show codeByte .badCommand ≠ 0x05 by decide)
  | headerShort | configShort | noTypeWord | noSizeWord t | payloadShort t w => exact .raised (by decide) _ _ _

section

variable {s : State} (hfree : Unbounded s.config)

include hfree

theorem execPreamble_notExhausted (p : Bytes) : ∃ t, execPreamble p s = .next t ∧ NotExhausted t := by
  unfold execPreamble
  split
  · exact ⟨_, rfl, .inl rfl⟩
  · refine ⟨_, rfl, ?_⟩
    obtain ⟨hfull, -⟩ | ⟨-, h⟩ := withDiag_cases .checksumInvalid 0 0 enterStdConfig
      { s with pre := loadPreamble p (checksumFlag p) }
    · cases hfree.diags.symm.trans hfull
    · exact h ▸ .inl rfl

theorem storeSection_notExhausted (hw : walking s.w.phase = true) (t : U16) (v : Option Payload) (p : Bytes) :
    NotExhausted (storeSection t v p s) := by
  obtain ⟨-, h⟩ | ⟨-, -, hfull, -⟩ | ⟨x, -, -, h⟩ := storeSection_cases t v p s
  · exact h ▸ .raised (by decide) _ _ _
  · cases hfree.cats.symm.trans hfull
  · exact h ▸ .inl hw

theorem skipSection_notExhausted (hw : walking s.w.phase = true) (c : Code) (t : U16) (p : Bytes) :
    NotExhausted (skipSection c t p s) := by
  obtain ⟨hfull, -⟩ | ⟨-, h⟩ := skipSection_cases c t p s
  · cases hfree.diags.symm.trans hfull
  · exact h ▸ .inl hw

/-- The item at the cursor, whichever it is, does not end the walk with ResourceExhausted. -/
theorem execWire_notExhausted {i : Instr} (hw : walking s.w.phase = true) (hf : fetchItem s = .ok i) :
    ∃ t, execWire i s = .next t ∧ NotExhausted t := by
  cases hp : s.w.phase with
  | preamble =>
    obtain ⟨p, rfl⟩ := fetchItem_preamble_ok hp hf
    exact execPreamble_notExhausted hfree p
  | stdConfig =>
    obtain ⟨c, rfl, -⟩ := fetchItem_stdConfig_ok hp hf
    exact ⟨_, rfl, .inl rfl⟩
  | inSection =>
    obtain rfl | ⟨t, p, rfl, -⟩ := fetchItem_inSection_ok hp hf
    · exact ⟨_, rfl, .inr (show (0x00 : Byte) ≠ 0x05 by decide)⟩
    · obtain h | ⟨c, -, h⟩ := execWire_sectionInstr_cases t p s
      · exact ⟨_, h, storeSection_notExhausted hfree hw _ _ _⟩
      · exact ⟨_, h, skipSection_notExhausted hfree hw _ _ _⟩
  | idle | terminal | failed => simp [hp, walking] at hw

theorem walkStep_notExhausted {t : State} (hw : walking s.w.phase = true) (h : walkStep s = .next t) :
    NotExhausted t := by
  cases hf : fetchItem s with
  | error e =>
    cases (walkStep_of_fetch_error hf).symm.trans h
    exact fetchFailed_notExhausted e s
  | ok i =>
    obtain ⟨u, hu, hnot⟩ := execWire_notExhausted hfree hw hf
    cases ((walkStep_of_fetched hf).trans hu).symm.trans h
    exact hnot

end

theorem walkStep_keeps_walksUnbounded {s t : State} (hs : WalksUnbounded s) (hw : walking s.w.phase = true)
    (h : walkStep s = .next t) : WalksUnbounded t :=
  ⟨(walkStep_effect hw h).keeps.config ▸ hs.free, walkStep_notExhausted hs.free hw h⟩

theorem walksUnbounded_startDecode {s : State} (hfree : Unbounded s.config) (n : U32) :
    WalksUnbounded (startDecode n s) := ⟨hfree, .inl rfl⟩

/-- The walk is over within its bound, and not with ResourceExhausted; a refused DECODE has the refusal's STATUS. -/
theorem exec_decode_status_ne {n : U32} {s t : State} (hfree : Unbounded s.config) (h : exec (.decode n) s = .next t) :
    t.status ≠ 0x05 := by
  by_cases hn : n.toNat ≤ s.config.inCap.toNat
  · rw [exec_decode_of_le hn] at h
    have hkept : WalksUnbounded t :=
      runWalk_keeps WalksUnbounded (fun _ _ => walkStep_keeps_walksUnbounded) (walksUnbounded_startDecode hfree n) h
    obtain ⟨u, hu, hended⟩ := runWalk_startDecode_ended n s
    cases hu.symm.trans h
    exact hkept.notExhausted.resolve_left hended.not_walking
  · rw [exec_decode_of_gt (Nat.not_le.mp hn)] at h
    cases h
    exact show (0x31 : Byte) ≠ 0x05 by decide

/-- Settles O36: a full CATS, a full DIAG, and the walk without either bound. -/
theorem fullCapacitiesEndDecode : Obligations.FullCapacitiesEndDecode := by
  refine ⟨fun p v s hfull i t hcodec => ?_, fun p t s hfull => ⟨?_, ?_, fun hresidue => ?_⟩,
    fun n s t hcats hdiags => exec_decode_status_ne ⟨hcats, hdiags⟩⟩
  · rw [CodecAnswers.exec_eq hcodec, storeSection_of_full hfull]
  · rw [exec_datatypes, skipSection_of_full hfull]
  · rw [exec_unknown, skipSection_of_full hfull]
  · exact exec_preamble_of_full hresidue hfull

end Sys2Proof.Machine
end

section
/-! SUPPORT. `rst` between commands (70_reset_and_hazards.md R360; log 18). -/

namespace Sys2Proof.Machine

/-- `rst` is taken off the events and leaves the reset state, with IN and the later events kept (log 18). -/
theorem step_of_rst {s : State} {rest : List HostEvent} (ha : accepting s = true) (hh : s.host = .rst :: rest) :
    step s = .next (resetEvent { s with host := rest }) := by
  simp only [step, if_neg (not_walking_of_accepting ha), hh]

/-- Settles O2: the event leaves the values of the reset table of the instance, settled for O1, beside IN and the
events. -/
theorem resetEventRestoresResetValues : Obligations.ResetEventRestoresResetValues := by
  intro s rest ha hh
  obtain ⟨hcrc, -, -, hcats, hvalid, hstatus, herr, hdiags, hphase, hpos, htype, hwords, hwriter, -⟩ :=
    resetLeavesTheSpecValues s.config
  exact ⟨_, step_of_rst ha hh, hcrc, rfl, rfl, hcats, hvalid, hstatus, herr, hdiags, hphase, hpos, htype, hwords,
    hwriter, resetEvent_input _, resetEvent_host _⟩

end Sys2Proof.Machine
end
